-- ==== Sys2Proof/Word.lean ====
section
/-! DEFINITION. The word and byte of the W2416 (spec/00, "Words and addresses": a word is 16 bits;
R118: the capture port brings bytes). -/

namespace Sys2Proof

/-- A word is 16 bits (spec/00). -/
abbrev Word := BitVec 16

/-- A byte of the capture port (R118), a tag (R20), a set of event flags (R178). -/
abbrev Byte := BitVec 8

end Sys2Proof
end

