-- ==== Sys2Proof/Syntax.lean ====
section
/-! DEFINITION. The commands of the W2416: one constructor for each row of spec/opcode_table.json. -/

namespace Sys2Proof

/-- The three windows of a bank that bar ROW_SHUT (R58, R63). -/
inductive ShutWindow where
  | minimumOpen
  | writeRecovery
  | readToShut
  deriving DecidableEq, Repr

/-- The commands. A host write carries the data of its bus cycle; a window expiry of a bank names
the bank; a probe completion carries the two feedback samples; the grants and array operations
carry nothing, since the job that holds the path fixes their bank, row and value (R69, R78). -/
inductive Instr where
  -- host bus cycles
  | post (v : Word)
  | release (v : Word)
  | dataPortWrite (v : Word)
  | dataPortRead
  | dataPortPointerWrite (v : Word)
  | timingParameterWrite (v : Word)
  | geometryWrite (v : Word)
  | arrayDivWrite (v : Word)
  | policyWrite (v : Word)
  | ageLimitWrite (v : Word)
  | refreshSettingWrite (v : Word)
  | ringDescriptorWrite (v : Word)
  | autoAlignWrite (v : Word)
  | laneDelayWrite (v : Word)
  | shadowWrite (word : Fin 4) (v : Word)
  | consumerWrite (v : Word)
  | eventAcknowledge (v : Word)
  | eventEnableWrite (v : Word)
  | plainRegisterWrite (offset : BitVec 6) (v : Word)
  -- command codes
  | startArray
  | setMode
  | align
  | retainEnter
  | retainExit
  | closeAll
  | abort
  | clearRetention
  | captureStart
  | captureStop
  | softReset
  | unknownCommandWrite (v : Word)
  -- resets
  | softResetTakesEffect
  | hardwareReset
  | resetRelease
  -- arrivals and expiries
  | captureByteArrival (b : Byte)
  | refreshPeriodExpiry
  | dozeIdleExpiry
  | wakeEnd
  | openDelayExpiry (bank : Fin 8)
  | closeTimeExpiry (bank : Fin 8)
  | shutWindowExpiry (bank : Fin 8) (window : ShutWindow)
  | openSpacingExpiry
  | modeHoldExpiry
  | modeSettleExpiry
  | renewCompletion
  | readHoldExpiry
  | resetHoldExpiry
  | wakePhaseExpiry
  | settlePhaseExpiry
  | lockPhaseExpiry
  | retainMinExpiry
  | retainExitTimeExpiry
  | strobeProbeCompletion (lane0 lane1 : Bool)
  | readBurstCompletion
  | writeBurstCompletion
  -- grants of the array command path
  | selection
  | recordBurstGrant
  | shutClaimGrant
  | captureChunkGrant
  | urgentRefreshGrant
  | opportunisticRefreshGrant
  | drainGrant
  | restoreGrant
  -- array operations
  | rowOpen
  | rowShut
  | readBurst
  | writeBurst
  | renew
  | modeLoad
  | strobeProbe
  | napIn
  | retainIn
  deriving DecidableEq, Repr

end Sys2Proof
end

