-- ==== Sys2Proof/WellFormed.lean ====
section
/-! DEFINITION. Which terms of `Instr` are commands of the part. Two rows stand for a set of bus
cycles that excludes others; every other term is a command. -/

namespace Sys2Proof

/-- The register offsets whose write has no behaviour of its own (R186, R187): the submission
registers 00h..05h, WRITE_EXT 0Fh, PARAM_SEL 10h, and the read-only registers. -/
def plainOffset (offset : BitVec 6) : Bool :=
  let o := offset.toNat
  decide (o ≤ 5 ∨ (8 ≤ o ∧ o ≤ 11) ∨ o = 15 ∨ o = 16 ∨ (20 ≤ o ∧ o ≤ 32) ∨
    (34 ≤ o ∧ o ≤ 43) ∨ 48 ≤ o)

/-- The eleven command codes 0001h..000Bh (R190, section 11.4). -/
def commandCode (v : Word) : Bool := decide (1 ≤ v.toNat ∧ v.toNat ≤ 11)

/-- A command is well formed when its row stands for it: a plain register write names a register
with no behaviour of its own, and an unknown command write carries no command code. -/
def Instr.wellFormed : Instr → Bool
  | .plainRegisterWrite offset _ => plainOffset offset
  | .unknownCommandWrite v => !commandCode v
  | .post _ | .release _ | .dataPortWrite _ | .dataPortRead | .dataPortPointerWrite _
  | .timingParameterWrite _ | .geometryWrite _ | .arrayDivWrite _ | .policyWrite _
  | .ageLimitWrite _ | .refreshSettingWrite _ | .ringDescriptorWrite _ | .autoAlignWrite _
  | .laneDelayWrite _ | .shadowWrite _ _ | .consumerWrite _ | .eventAcknowledge _
  | .eventEnableWrite _ | .startArray | .setMode | .align | .retainEnter | .retainExit
  | .closeAll | .abort | .clearRetention | .captureStart | .captureStop | .softReset
  | .softResetTakesEffect | .hardwareReset | .resetRelease | .captureByteArrival _
  | .refreshPeriodExpiry | .dozeIdleExpiry | .wakeEnd | .openDelayExpiry _ | .closeTimeExpiry _
  | .shutWindowExpiry _ _ | .openSpacingExpiry | .modeHoldExpiry | .modeSettleExpiry
  | .renewCompletion | .readHoldExpiry | .resetHoldExpiry | .wakePhaseExpiry
  | .settlePhaseExpiry | .lockPhaseExpiry | .retainMinExpiry | .retainExitTimeExpiry
  | .strobeProbeCompletion _ _ | .readBurstCompletion | .writeBurstCompletion | .selection
  | .recordBurstGrant | .shutClaimGrant | .captureChunkGrant | .urgentRefreshGrant
  | .opportunisticRefreshGrant | .drainGrant | .restoreGrant | .rowOpen | .rowShut
  | .readBurst | .writeBurst | .renew | .modeLoad | .strobeProbe | .napIn | .retainIn => true

end Sys2Proof
end

