-- ==== Sys2Proof/Decode.lean ====
section
/-! DEFINITION. Decoding a table word. spec/opcode_table.json gives no row any bits ("fields": []
and no "fixed"), so no word spells a command. -/

namespace Sys2Proof

/-- The command that a word spells by the bits of spec/opcode_table.json: none, since no row of
the table gives bits. -/
def decodeTableWord (_nbits _w : Nat) : Option Instr := none

end Sys2Proof
end

