-- ==== Sys2Proof/Config.lean ====
section
/-! DEFINITION. The free values: what the manual leaves open. Each is an opaque constant, so that no
proof can lean on its value. -/

namespace Sys2Proof

/-- The value of staging-buffer word `address` before anything is stored in it, after hardware
reset number `epoch` (R46: "Unknown: each word holds an unknown value until first stored"). Log 5. -/
opaque Config.unknownBufferWord (epoch address : Nat) : Word

/-- The value of array word `address` while R18 gives it no value: not written since the array
passed through COLD, or since the last violation. Log 6. -/
opaque Config.unknownArrayWord (epoch address : Nat) : Word

/-- The feedback sample of a lane at draw `draw` (R14), when the part runs by itself. Log 7. -/
opaque Config.feedback (draw lane : Nat) : Bool

/-- Which of several events that fall together is taken first, at draw `draw`, when the part
runs by itself (spec/00: no rule orders them). Log 4. -/
opaque Config.choice (draw : Nat) : Nat

end Sys2Proof
end

