-- ==== Sys2Proof/Machine/State.lean ====
section
/-! DEFINITION. The state of the W2416, block by block as spec/00 lists them, and the state right
after reset. Points in time are AC counts (spec/00, "Time"); a window is `some point` while it has
a point and `none` once its expiry has been taken or when it was never started (R58). -/

namespace Sys2Proof.Machine

/-! ### Memory -/

/-- The words that have been stored, by address: addresses strictly rising, one entry each. An
address that is not listed holds an unknown value (R18, R46). -/
abbrev Memory := List (Nat × Word)

/-! ### Bus Interface Unit -/

/-- The submit status (R19, R23, R189). -/
inductive SubmitStatus where
  | none | accepted | poolFull | notReady | badKind | tagBusy | lengthFault | alignFault
  | rangeFault | slotFault | slotBusy
  deriving DecidableEq, Repr

/-- The outcome field of the command status (R190). -/
inductive CommandOutcome where
  | none | accepted | state | modeFault | ringFault
  deriving DecidableEq, Repr

/-- The Bus Interface Unit: submission registers, data-port pointer, selection and extension
latches, command status (R19, R47, R187, R188, R190). -/
structure Bus where
  subAddrLo : Word
  subAddrHi : BitVec 12
  subLength : BitVec 10
  subCtrl : BitVec 15
  subSlot : BitVec 5
  subPattern : Word
  submitStatus : SubmitStatus
  dpPtr : BitVec 11
  paramSel : BitVec 5
  writeExt : BitVec 12
  lastCode : BitVec 4
  outcome : CommandOutcome
  /-- The SOFT_RESET pending bit (R190, R191). -/
  softPending : Bool
  /-- D15..D0 as the last data-port read drove them; `none` while not driven (R186, log 13). -/
  dataOut : Option Word
  deriving DecidableEq, Repr

/-! ### Record Pool and Completion Queue -/

/-- The kind of a record (R20). -/
inductive Kind where
  | read | write | fill | compare
  deriving DecidableEq, Repr

/-- The close option of a record (R22, R71). -/
inductive CloseOption where
  | policy | keep | shut
  deriving DecidableEq, Repr

/-- The submitted fields of a record (section 2.1). The slot is absent for FILL, the pattern is
absent for the other kinds (R20, R25). -/
structure Request where
  tag : Byte
  kind : Kind
  address : Nat
  length : Nat
  slot : Option Nat
  closeOption : CloseOption
  urgent : Bool
  notify : Bool
  pattern : Option Word
  deriving DecidableEq, Repr

/-- A QUEUED record (section 2.1, R25, R86). -/
structure Queued where
  req : Request
  seq : Word
  age : Nat
  deriving DecidableEq, Repr

/-- The comparison tally of a COMPARE record: the count of differing words and the offset of the
first (R88, R90). -/
structure Tally where
  count : Nat
  first : Option Nat
  deriving DecidableEq, Repr

/-- The ACTIVE record (R88). `position` is the number of requested words that issued blocks have
covered; it fixes the next block to be issued (R4, R89). -/
structure Active where
  req : Request
  seq : Word
  age : Nat
  paused : Bool
  segment : Nat
  wordsDone : Nat
  position : Nat
  tally : Tally
  /-- Being aborted: an ABORT was taken with bursts of the record in flight (R97). -/
  aborting : Bool
  deriving DecidableEq, Repr

/-- The result of a DONE record (R32). -/
inductive Result where
  | done | mismatch | aborted
  deriving DecidableEq, Repr

/-- A DONE record: its completion fields (R31 to R34) and the number it keeps (R26). `mismatch` is
the first mismatch offset and the mismatch count (R34). -/
structure Completion where
  tag : Byte
  kind : Kind
  seq : Word
  result : Result
  wordsDone : Nat
  suspect : Option Bool
  mismatch : Option (Nat × Nat)
  deriving DecidableEq, Repr

/-- The Record Pool and the Completion Queue. A record is in exactly one of the three fields while
it is live; the records of the pool that are in none are FREE (R27, R28). -/
structure Pool where
  /-- QUEUED records in acceptance order. -/
  queued : List Queued
  active : Option Active
  /-- The completion queue, oldest first (R35). -/
  done : List Completion
  /-- The sequence counter (R26). -/
  counter : Word
  deriving DecidableEq, Repr

/-! ### Staging Buffer -/

/-- The Staging Buffer (R42). `owner` is `none` for a HOST slot and the tag of the record that
holds it for a LENT slot (a tag names one live record, R30). -/
structure Staging where
  words : Memory
  owner : Vector (Option Byte) 32
  /-- Model's own: which unknown words the buffer powered on with (log 5). -/
  epoch : Nat
  deriving DecidableEq, Repr

/-! ### Event Unit -/

/-- The six fault kinds (R182). -/
inductive FaultKind where
  | portFault | emptyRelease | consumerFault | timingRange | delayBusy | commandFault
  deriving DecidableEq, Repr

/-- A full fault record (section 10.3). -/
structure FaultRecord where
  kind : FaultKind
  detail : Word
  further : Nat
  deriving DecidableEq, Repr

/-- The Event Unit: flags and enables at the bits of the code table of R187, and the fault record,
`none` while empty (R178, R180, R181). -/
structure Events where
  flags : BitVec 8
  enables : BitVec 8
  record : Option FaultRecord
  deriving DecidableEq, Repr

/-! ### Scheduler and arbiter -/

/-- The job that holds the array command path (R78). A chunk counts the bursts it has issued. -/
inductive Job where
  | recordBurst
  | shutClaim (bank : Fin 8)
  | chunk (issued : Nat)
  | urgentRefresh
  | pullIn
  | procedure
  deriving DecidableEq, Repr

/-- Whose burst it is: the ACTIVE record's, or a capture chunk's; `last` for the chunk's fourth. -/
inductive BurstUser where
  | record
  | chunk (last : Bool)
  deriving DecidableEq, Repr

/-- A burst in flight, from its issue to its completion (R7, R9, R10). `base` is the array address
of the first word of its block, `first` and `count` the request words the block carries, `done` its
completion point, `delays` the lane delays in force at its issue (R10). `data` are the words a
WRITE_BURST took at its issue; for a READ_BURST the leading words of its block that it had captured
when the array's contents were lost (R9, R18), none otherwise. -/
structure Burst where
  isWrite : Bool
  user : BurstUser
  bank : Fin 8
  row : Nat
  base : Nat
  length : Nat
  data : List Word
  first : Nat
  count : Nat
  /-- It carries the last block of its record segment. -/
  endsSegment : Bool
  done : Nat
  delays : Vector (BitVec 6) 2
  deriving DecidableEq, Repr

/-- The Scheduler and its arbiter (R78, R86), and the data lanes (R11): the bursts in flight in
issue order, and the ends of the data intervals of the last READ_BURST and WRITE_BURST. -/
structure Sched where
  job : Option Job
  ageLimit : Nat
  inFlight : List Burst
  lastReadEnd : Nat
  lastWriteEnd : Nat
  deriving DecidableEq, Repr

/-! ### Bank Table -/

/-- The four bank states (section 4.2). -/
inductive BankState where
  | closed | opening | opened | shutting
  deriving DecidableEq, Repr

/-- The write-recovery end of a bank (R58). -/
inductive WriteRecovery where
  | expired
  | pending
  | ends (point : Nat)
  deriving DecidableEq, Repr

/-- An entry of the Bank Table (R57). -/
structure Bank where
  state : BankState
  openRow : Option Nat
  openDelayEnd : Option Nat
  minOpenEnd : Option Nat
  writeRecovery : WriteRecovery
  readToShutEnd : Option Nat
  closeTimeEnd : Option Nat
  mark : Bool
  deriving DecidableEq, Repr

/-- The row policy (R72). -/
inductive Policy where
  | openPage | closedPage | adaptive
  deriving DecidableEq, Repr

/-- The Bank Table: the eight entries, the four global windows (R59) and POLICY (R74). -/
structure Table where
  banks : Vector Bank 8
  openSpacing : Option Nat
  renewWindow : Option Nat
  modeHold : Option Nat
  modeSettle : Option Nat
  policy : Policy
  deriving DecidableEq, Repr

/-! ### Refresh Account -/

/-- The Refresh Account (R102). -/
structure Refresh where
  balance : Int
  timer : Option Nat
  urgentLevel : Nat
  pullinFloor : Int
  retentionLost : Bool
  violations : Nat
  deriving DecidableEq, Repr

/-! ### Capture Engine -/

/-- The capture state (section 7.1). -/
inductive CaptureState where
  | idle | running | draining
  deriving DecidableEq, Repr

/-- The Capture Engine (section 7.1). The fill is computed (R123). -/
structure Capture where
  state : CaptureState
  assembler : Option Byte
  fifo : List Word
  base : BitVec 28
  size : Word
  mark : BitVec 28
  producer : Nat
  consumer : Nat
  drops : Nat
  pad : Nat
  deriving DecidableEq, Repr

/-! ### Geometry, timing and clocks -/

/-- One copy of the geometry (R1). -/
structure Geometry where
  rows : Nat
  cols : Nat
  deriving DecidableEq, Repr

/-- Geometry, timing and clock settings: host and working geometry (R1), host copies of parameters
0..18 (R15), the working set (R16), the two divisors (R17; `none` while none is applied). -/
structure Setup where
  hostGeometry : Geometry
  workGeometry : Geometry
  host : Vector Nat 19
  working : Vector Nat 16
  pendingDiv : Nat
  appliedDiv : Option Nat
  deriving DecidableEq, Repr

/-! ### Array Controller -/

/-- The array state (section 8.1). -/
inductive ArrayState where
  | cold | starting | ready | setting | aligning | dozing | retaining
  deriving DecidableEq, Repr

/-- The procedure indication (R139). -/
inductive Indication where
  | none | starting | setting | aligning | retainPending
  deriving DecidableEq, Repr

/-- Who has asked for the array with a drain claim (R82). -/
inductive Drain where
  | setMode | align | retain | doze
  deriving DecidableEq, Repr

/-- How far the Array Controller's present work is. -/
inductive Progress where
  /-- No procedure, doze entry, wake or exit sequence. -/
  | idle
  /-- The phases of STARTING that only wait (R141, R143), with their ends. -/
  | resetHold (point : Nat)
  | wakePhase (point : Nat)
  | settlePhase (point : Nat)
  | lockPhase (point : Nat)
  /-- The drain claim stands (R82). -/
  | draining (d : Drain)
  /-- The drain is granted; the shut-all runs (R66). -/
  | shutAll (d : Drain)
  /-- All banks closed; RENEWs down to balance 0 are served (R149). -/
  | renewing (d : Drain)
  /-- The first operation of the procedure's own work is due (R150, R154, R166, R172). -/
  | due (d : Drain)
  /-- An ALIGN has issued its RENEWs; its first load waits for the renew window of the last (R154). -/
  | renewed
  /-- Mode words are being loaded (R142, R150). -/
  | loading
  /-- Align mode is set, or being set, and taps are probed (R155). -/
  | probing
  /-- A probe has completed and the next one is issued at that completion (R155, R163). -/
  | probeDue
  /-- The steps of a suspension (R158): M1 clear due, its settle, RENEWs, M1 set due, its settle. -/
  | suspendClear
  | suspendSettle
  | suspendRenew
  | suspendSet
  | suspendResume
  /-- The end of an alignment (R157): M1 clear due, its settle. -/
  | endClear
  | endSettle
  /-- A wake, to the expiry of NAP_EXIT_TIME (R169). -/
  | waking (point : Nat)
  /-- The exit sequence (R175): RETAIN_EXIT_TIME, lock restart due, its settle. -/
  | exitTime (point : Nat) (changed : Bool)
  | exitLoad
  | exitSettle
  /-- The restore after SOFT_RESET (R162): M1 clear due, then the shut-all; `settle` says that it
  waits for the mode-settle window of its own load, or of the SET_MODE's that it restores. -/
  | restoreLoad
  | restoreShut (settle : Bool)
  /-- Stopped by a SOFT_RESET, until the restore is granted (R162); in SETTING `loaded` says that the
  SET_MODE that was stopped had issued a MODE_LOAD, and in ALIGNING nothing follows from it (log 37). -/
  | stopped (loaded : Bool)
  deriving DecidableEq, Repr

/-- The outcome of an alignment for one lane (section 8.5). -/
inductive LaneOutcome where
  | none | locked | failed
  deriving DecidableEq, Repr

/-- The alignment record of one lane, and whether the lane is searching (R153, section 8.5). -/
structure Lane where
  outcome : LaneOutcome
  lockTap : Option Nat
  trace : List Bool
  searching : Bool
  deriving DecidableEq, Repr

/-- A strobe probe in flight: its end, its tap and the tap driven on each lane (R155). -/
structure Probe where
  point : Nat
  tap : Nat
  driven : Vector (BitVec 6) 2
  deriving DecidableEq, Repr

/-- The Array Controller. An array copy is `none` while unknown (R145). -/
structure Ctrl where
  arrayState : ArrayState
  indication : Indication
  progress : Progress
  loadImage : Vector Word 4
  loadWords : List (Fin 4)
  shadows : Vector Word 4
  copies : Vector (Option Word) 4
  readHold : Option Nat
  delays : Vector (BitVec 6) 2
  lanes : Vector Lane 2
  interruptions : Nat
  nextTap : Nat
  probe : Option Probe
  autoAlign : Bool
  /-- The array reset line is asserted. -/
  arrayReset : Bool
  /-- The clock-enable line is high. -/
  clockEnable : Bool
  retainMin : Option Nat
  exitHeld : Bool
  /-- The restore claim after SOFT_RESET (R162). -/
  restoreDue : Bool
  dozeTimer : Option Nat
  deriving DecidableEq, Repr

/-! ### The array and its port -/

/-- The array's words (R18). -/
structure ArrayContents where
  words : Memory
  /-- Model's own: which unknown contents the unlisted words hold (log 6). -/
  epoch : Nat
  deriving DecidableEq, Repr

/-- An operation on the array port (section 1.4). -/
inductive ArrayOp where
  | rowOpen (bank : Fin 8) (row : Nat)
  | rowShut (bank : Fin 8)
  | readBurst (bank : Fin 8) (column length : Nat)
  | writeBurst (bank : Fin 8) (column length : Nat)
  | renew
  | modeLoad (word : Fin 4) (value : Word)
  | napIn
  | napOut
  | retainIn
  | retainOut
  | strobeProbe
  deriving DecidableEq, Repr

/-- An operation with the AC of its issue. -/
structure Issued where
  op : ArrayOp
  point : Nat
  deriving DecidableEq, Repr

/-- The state of the W2416. -/
structure State where
  bus : Bus
  pool : Pool
  staging : Staging
  events : Events
  sched : Sched
  table : Table
  refresh : Refresh
  capture : Capture
  setup : Setup
  ctrl : Ctrl
  array : ArrayContents
  /-- RESET# is low (R192). -/
  resetLow : Bool
  /-- The last operation on the array port (R7). -/
  port : Option Issued
  /-- Model's own: the AC count (log 1). -/
  now : Nat
  /-- Model's own: the counter of free values drawn (log 4). -/
  draws : Nat
  /-- Model's own: the commands that wait, first in, first out. -/
  pending : List Instr
  deriving DecidableEq, Repr

/-- Why the machine would stop with a fault: never. The manual's faults are data in the fault
record (R181), and no rule stops the part. -/
inductive Fault where
  deriving DecidableEq, Repr

/-- Why a command would be refused. -/
inductive Refusal where
  /-- A command with no meaning in the model yet, by its mnemonic. No arm of exec raises it. Safe. -/
  | notModelled (mnemonic : String)
  deriving DecidableEq, Repr

/-! ### The machine right after reset -/

/-- R40, R46, R188, R192. -/
def Bus.reset : Bus where
  subAddrLo := 0
  subAddrHi := 0
  subLength := 0
  subCtrl := 0
  subSlot := 0
  subPattern := 0
  submitStatus := .none
  dpPtr := 0
  paramSel := 0
  writeExt := 0
  lastCode := 0
  outcome := .none
  softPending := false
  dataOut := none

/-- R40. -/
def Pool.reset : Pool where
  queued := []
  active := none
  done := []
  counter := 0

/-- R46. -/
def Staging.reset : Staging where
  words := []
  owner := Vector.replicate 32 none
  epoch := 0

/-- R185. -/
def Events.reset : Events where
  flags := 0
  enables := 0
  record := none

/-- R78, R86, R101. -/
def Sched.reset : Sched where
  job := none
  ageLimit := 4
  inFlight := []
  lastReadEnd := 0
  lastWriteEnd := 0

/-- An entry after hardware reset (R57). -/
def Bank.reset : Bank where
  state := .closed
  openRow := none
  openDelayEnd := none
  minOpenEnd := none
  writeRecovery := .expired
  readToShutEnd := none
  closeTimeEnd := none
  mark := false

/-- R57, R59, R74. -/
def Table.reset : Table where
  banks := Vector.replicate 8 Bank.reset
  openSpacing := none
  renewWindow := none
  modeHold := none
  modeSettle := none
  policy := .adaptive

/-- R102. -/
def Refresh.reset : Refresh where
  balance := 0
  timer := none
  urgentLevel := 6
  pullinFloor := -2
  retentionLost := false
  violations := 0

/-- R136. -/
def Capture.reset : Capture where
  state := .idle
  assembler := none
  fifo := []
  base := 0
  size := 0
  mark := 0
  producer := 0
  consumer := 0
  drops := 0
  pad := 0

/-- R1: ROWS 8192, COLS 1024. -/
def Geometry.reset : Geometry where
  rows := 8192
  cols := 1024

/-- R1, R15, R16, R17: the reset columns of the tables of section 1.5. -/
def Setup.reset : Setup where
  hostGeometry := Geometry.reset
  workGeometry := Geometry.reset
  host := #v[6, 15, 6, 6, 4, 4, 104, 4, 12, 512, 3120, 6, 8, 112, 16, 0, 128, 64, 256]
  working := #v[6, 15, 6, 6, 4, 4, 104, 4, 12, 512, 3120, 6, 8, 112, 16, 0]
  pendingDiv := 2
  appliedDiv := none

/-- A lane of a cleared alignment record (R138). -/
def Lane.reset : Lane where
  outcome := .none
  lockTap := none
  trace := []
  searching := false

/-- R138, R164, R177. The read latency 6 is in M0 bits 3..0, the write latency 5 in M2 bits 3..0. -/
def Ctrl.reset : Ctrl where
  arrayState := .cold
  indication := .none
  progress := .idle
  loadImage := #v[0, 0, 0, 0]
  loadWords := []
  shadows := #v[6, 0, 5, 0]
  copies := #v[none, none, none, none]
  readHold := none
  delays := #v[32, 32]
  lanes := #v[Lane.reset, Lane.reset]
  interruptions := 0
  nextTap := 0
  probe := none
  autoAlign := false
  arrayReset := true
  clockEnable := false
  retainMin := none
  exitHeld := false
  restoreDue := false
  dozeTimer := none

/-- The machine right after hardware reset, RESET# released and the recovery time passed (R192,
log 9). -/
def State.reset : State where
  bus := Bus.reset
  pool := Pool.reset
  staging := Staging.reset
  events := Events.reset
  sched := Sched.reset
  table := Table.reset
  refresh := Refresh.reset
  capture := Capture.reset
  setup := Setup.reset
  ctrl := Ctrl.reset
  array := { words := [], epoch := 0 }
  resetLow := false
  port := none
  now := 0
  draws := 0
  pending := []

end Sys2Proof.Machine
end

