-- ==== Sys2Proof/Machine/Flags.lean ====
section
/-! DEFINITION. The Event Unit's operations: event flags, acknowledge, INT#, the fault record
(chapter 10). -/

namespace Sys2Proof.Machine

/-- The eight events (section 10.1). -/
inductive Event where
  | completion | mark | overrun | stopped | retentionLost | alignDone | ready | fault
  deriving DecidableEq, Repr

/-- The bit of an event in EVT_FLAGS and EVT_ENABLE (R187, code table). -/
def Event.bit : Event → Nat
  | .completion => 0
  | .mark => 1
  | .overrun => 2
  | .stopped => 3
  | .retentionLost => 4
  | .alignDone => 5
  | .ready => 6
  | .fault => 7

/-- The flag byte with one event's bit set. -/
def Event.mask (e : Event) : BitVec 8 := BitVec.ofNat 8 (2 ^ e.bit)

/-- Whether an event's flag is set (R178). -/
def State.flag (s : State) (e : Event) : Bool := s.events.flags.getLsbD e.bit

/-- The cause of an event occurs: its flag is set; a set flag stays set (R178). -/
def State.raiseEvent (s : State) (e : Event) : State :=
  { s with events.flags := s.events.flags ||| e.mask }

/-- A fault: fills an empty record and sets FAULT, or raises the further-fault count of a full
one, saturating at 255 (R181). -/
def Events.raiseFault (u : Events) (kind : FaultKind) (detail : Word) : Events :=
  match u.record with
  | none => { u with record := some ⟨kind, detail, 0⟩, flags := u.flags ||| Event.fault.mask }
  | some r => { u with record := some { r with further := min 255 (r.further + 1) } }

/-- A fault raised by a host bus cycle (R181, R182). -/
def State.raiseFault (s : State) (kind : FaultKind) (detail : Word) : State :=
  { s with events := s.events.raiseFault kind detail }

/-- An acknowledge: the named flags are cleared; naming FAULT also empties the record (R179). -/
def Events.acknowledge (u : Events) (v : Word) : Events :=
  { u with
    flags := u.flags &&& ~~~(v.setWidth 8)
    record := if v.getLsbD Event.fault.bit then none else u.record }

/-- INT# is asserted: some flag is both set and enabled (R180). -/
def State.intAsserted (s : State) : Bool := s.events.flags &&& s.events.enables != 0

/-- The Event Unit when SOFT_RESET takes effect: flags cleared, record emptied, enables kept
(R185). -/
def Events.softReset (u : Events) : Events := { u with flags := 0, record := none }

end Sys2Proof.Machine
end

