-- ==== Sys2Proof/Machine/Ops.lean ====
section
/-! DEFINITION. The named operations: memory, time and windows, the array port, the staging buffer,
the bank table, the setup values. -/

namespace Sys2Proof.Machine

/-! ### Memory -/

/-- The word stored at an address, if one has been. -/
def Memory.read : Memory → Nat → Option Word
  | [], _ => none
  | (a, w) :: m, b => if a = b then some w else Memory.read m b

/-- Store a word, keeping the addresses in rising order. -/
def Memory.write : Memory → Nat → Word → Memory
  | [], b, v => [(b, v)]
  | (a, w) :: m, b, v =>
    if b < a then (b, v) :: (a, w) :: m
    else if b = a then (b, v) :: m
    else (a, w) :: Memory.write m b v

/-- Store a run of words from an address up. -/
def Memory.writeAll : Memory → Nat → List Word → Memory
  | m, _, [] => m
  | m, b, v :: vs => Memory.writeAll (Memory.write m b v) (b + 1) vs

/-- The canonical form: addresses strictly rising (so one entry each). -/
def Memory.wf : Memory → Bool
  | [] => true
  | [_] => true
  | (a, _) :: (b, w) :: m => decide (a < b) && Memory.wf ((b, w) :: m)

/-- A staging-buffer word: the last value stored, or its unknown value (R42, R46, log 5). -/
def Staging.word (b : Staging) (a : Nat) : Word :=
  (b.words.read a).getD (Config.unknownBufferWord b.epoch a)

/-- An array word: the last value written, or its unknown value (R18, log 6). -/
def ArrayContents.word (m : ArrayContents) (a : Nat) : Word :=
  (m.words.read a).getD (Config.unknownArrayWord m.epoch a)

/-- The array's words are no longer known (R18: a violation, or the array passing through COLD). -/
def ArrayContents.forget (m : ArrayContents) : ArrayContents :=
  { words := [], epoch := m.epoch + 1 }

/-- The words of a READ_BURST's block that are captured before AC `now`: two in each AC of its data
interval, which ends at its completion point (R9, R11). -/
def Burst.captured (x : Burst) (now : Nat) : Nat :=
  min x.length (2 * (now - (x.done - x.length / 2)))

/-- The array word at an address as a READ_BURST has captured it, or else as the array holds it. -/
def ArrayContents.readBy (m : ArrayContents) (x : Burst) (address : Nat) : Word :=
  (x.data[address - x.base]?).getD (m.word address)

/-- A burst in flight when the array's contents are lost: a READ_BURST keeps the words it has
captured (R9, log 33). -/
def Burst.keepCaptured (x : Burst) (m : ArrayContents) (now : Nat) : Burst :=
  if x.isWrite then x
  else { x with data := (List.range (x.captured now)).map fun j => m.readBy x (x.base + j) }

/-- The array's contents are lost (R18); the words that reads in flight have captured are not. -/
def State.loseContents (s : State) : State :=
  { s with
    sched.inFlight := s.sched.inFlight.map fun x => x.keepCaptured s.array s.now
    array := s.array.forget }

/-! ### Time and windows -/

/-- A window is expired: it was never started, its expiry was taken, or its point has passed
(R58). -/
def expired (window : Option Nat) (now : Nat) : Bool :=
  match window with
  | none => true
  | some point => decide (point ≤ now)

/-- The write-recovery end is expired; a pending end is not (R58, R63). -/
def WriteRecovery.expiredAt (w : WriteRecovery) (now : Nat) : Bool :=
  match w with
  | .expired => true
  | .pending => false
  | .ends point => decide (point ≤ now)

/-- The AC at which an event with this point is taken: the point itself, or the present AC if it
has passed (log 3). -/
def State.pointOf (s : State) (point : Nat) : Nat := max s.now point

/-- The state at AC `t`. -/
def State.atAC (s : State) (t : Nat) : State := { s with now := t }

/-- A step of the part while RESET# is high; while it is low nothing is taken (R192). -/
def State.take (s : State) (next : State) : Host.Outcome State Fault Refusal :=
  .next (if s.resetLow then s else next)

/-- A step that is taken at some AC when its conditions hold, and does not take place when they do
not (log 2). -/
def State.takeAt (s : State) (point : Option Nat) (effect : Nat → State → State) :
    Host.Outcome State Fault Refusal :=
  match point with
  | some t => s.take (effect t s)
  | none => .next s

/-! ### Setup values -/

/-- The ranges of parameters 0..18 (section 1.5). -/
def paramRanges : Vector (Nat × Nat) 19 :=
  #v[(2, 31), (4, 63), (2, 31), (2, 31), (2, 15), (1, 15), (16, 511), (2, 15), (4, 31), (64, 1023),
     (256, 65535), (2, 31), (5, 255), (16, 1023), (8, 63), (0, 65535), (1, 255), (1, 255), (8, 1023)]

/-- A value lies in a parameter's range (R15). -/
def inParamRange (n : Fin 19) (v : Nat) : Bool :=
  decide ((paramRanges.get n).1 ≤ v ∧ v ≤ (paramRanges.get n).2)

/-- The working-set parameters by name (section 1.5, R16). -/
def Setup.openDelay (u : Setup) : Nat := u.working.get 0
def Setup.minOpen (u : Setup) : Nat := u.working.get 1
def Setup.closeTime (u : Setup) : Nat := u.working.get 2
def Setup.writeRecoveryTime (u : Setup) : Nat := u.working.get 3
def Setup.readToShut (u : Setup) : Nat := u.working.get 4
def Setup.openSpacing (u : Setup) : Nat := u.working.get 5
def Setup.renewTime (u : Setup) : Nat := u.working.get 6
def Setup.modeHold (u : Setup) : Nat := u.working.get 7
def Setup.modeSettle (u : Setup) : Nat := u.working.get 8
def Setup.lockTime (u : Setup) : Nat := u.working.get 9
def Setup.refreshPeriod (u : Setup) : Nat := u.working.get 10
def Setup.napExitTime (u : Setup) : Nat := u.working.get 11
def Setup.retainMinTime (u : Setup) : Nat := u.working.get 12
def Setup.retainExitTime (u : Setup) : Nat := u.working.get 13
def Setup.probeTime (u : Setup) : Nat := u.working.get 14
def Setup.dozeIdle (u : Setup) : Nat := u.working.get 15

/-- The start-up parameters, used from their host copies (R16). -/
def Setup.resetHoldUnits (u : Setup) : Nat := u.host.get 16
def Setup.wakeUnits (u : Setup) : Nat := u.host.get 17
def Setup.startSettle (u : Setup) : Nat := u.host.get 18

/-- The working set is loaded from the host copies (R16). -/
def Setup.loadWorking (u : Setup) : Setup :=
  { u with working :=
      #v[u.host.get 0, u.host.get 1, u.host.get 2, u.host.get 3, u.host.get 4, u.host.get 5,
         u.host.get 6, u.host.get 7, u.host.get 8, u.host.get 9, u.host.get 10, u.host.get 11,
         u.host.get 12, u.host.get 13, u.host.get 14, u.host.get 15] }

/-- The array size in words of a geometry (section 1.1). -/
def Geometry.size (g : Geometry) : Nat := g.rows * 8 * g.cols

/-! ### Mode words -/

/-- The read latency field of M0: bits 3..0 (R187). -/
def readLatencyField (m0 : Word) : Nat := m0.toNat % 16

/-- The write latency field of M2: bits 3..0 (R187). -/
def writeLatencyField (m2 : Word) : Nat := m2.toNat % 16

/-- M0's lock-restart field, bit 8 (R187). -/
def lockRestartMask : Word := 0x0100#16

/-- M1's align-mode field, bit 7 (R187). -/
def alignModeMask : Word := 0x0080#16

/-- M0 asks for a lock restart. -/
def lockRestart (m0 : Word) : Bool := m0.getLsbD 8

/-- The align-mode field of a value of M1. -/
def alignMode (m1 : Word) : Bool := m1.getLsbD 7

/-- The array copy of M1 has align mode set (R14). -/
def Ctrl.inAlignMode (c : Ctrl) : Bool :=
  match c.copies.get 1 with
  | some m1 => alignMode m1
  | none => false

/-- A load image is valid (R147). -/
def validImage (image : Vector Word 4) : Bool :=
  let r := readLatencyField (image.get 0)
  let w := writeLatencyField (image.get 2)
  decide (5 ≤ r ∧ r ≤ 14 ∧ 5 ≤ w ∧ w ≤ 10 ∧ w ≤ r)

/-! ### The doze idle timer and the array port -/

/-- A doze idle timer that starts at AC `t` (R164): stopped when DOZE_IDLE is 0. -/
def State.dozeStart (s : State) (t : Nat) : Option Nat :=
  if s.setup.dozeIdle = 0 then none else some (t + s.setup.dozeIdle)

/-- The first AC, from the present one, at which the command lines are free: they carry at most one
operation in each AC (R7). -/
def State.issuePoint (s : State) : Nat :=
  match s.port with
  | none => s.now
  | some i => max s.now (i.point + 1)

/-- An operation is issued at AC `t` (R7). In READY it restarts the doze idle timer (R164). -/
def State.issue (s : State) (op : ArrayOp) (t : Nat) : State :=
  { s with
    now := t
    port := some ⟨op, t⟩
    ctrl.dozeTimer :=
      if s.ctrl.arrayState = .ready then s.dozeStart t else s.ctrl.dozeTimer }

/-! ### Staging-buffer ownership -/

/-- The slots of a span take an owner (`none` for HOST): `count` slots from `start` (R21, R43). -/
def setSpan (owner : Vector (Option Byte) 32) (start : Nat) (who : Option Byte) :
    Nat → Vector (Option Byte) 32
  | 0 => owner
  | n + 1 => (setSpan owner start who n).setIfInBounds (start + n) who

/-- The number of slots of a span: ceil(length / 64) (R21). -/
def spanSlots (length : Nat) : Nat := (length + 63) / 64

/-- Some slot of a span is LENT (check 9 of R23). -/
def Staging.spanBusy (b : Staging) (start count : Nat) : Bool :=
  (List.range count).any fun i => ((b.owner[start + i]?).getD none).isSome

/-- A record's span takes an owner; a record without a slot has no span (R44, R45, R55). -/
def Staging.setOwner (b : Staging) (r : Request) (who : Option Byte) : Staging :=
  match r.slot with
  | none => b
  | some slot => { b with owner := setSpan b.owner slot who (spanSlots r.length) }

/-- The slot of a buffer word is LENT (R50). A word address is below 2048, so its slot exists. -/
def Staging.lentAt (b : Staging) (a : BitVec 11) : Bool :=
  (b.owner.get ⟨a.toNat / 64, by have := a.isLt; omega⟩).isSome

/-! ### Bank table -/

/-- The bank numbers, lowest first. -/
def bankNumbers : List (Fin 8) := [0, 1, 2, 3, 4, 5, 6, 7]

/-- The entry of a bank. -/
def State.bank (s : State) (b : Fin 8) : Bank := s.table.banks.get b

/-- Replace the entry of a bank. -/
def State.setBank (s : State) (b : Fin 8) (e : Bank) : State :=
  { s with table.banks := s.table.banks.set b.val e b.isLt }

/-- The same change at every bank. -/
def Table.mapBanks (u : Table) (f : Bank → Bank) : Table :=
  { u with banks :=
      #v[f (u.banks.get 0), f (u.banks.get 1), f (u.banks.get 2), f (u.banks.get 3),
         f (u.banks.get 4), f (u.banks.get 5), f (u.banks.get 6), f (u.banks.get 7)] }

/-- The all-closed condition (R65). -/
def State.allClosed (s : State) : Bool :=
  decide (∀ b : Fin 8, (s.bank b).state = .closed)

/-- The mode-settle window has expired (R59). -/
def State.settled (s : State) : Bool := expired s.table.modeSettle s.now

/-- The mode-hold window has expired (R59). -/
def State.modeHoldOver (s : State) : Bool := expired s.table.modeHold s.now

/-- The renew window has expired: no RENEW is in flight (R12, R59). -/
def State.renewOver (s : State) : Bool := expired s.table.renewWindow s.now

/-- The read hold is in force (R151). -/
def State.holdInForce (s : State) : Bool := !expired s.ctrl.readHold s.now

/-- A bank's own conditions for ROW_SHUT (R63). -/
def Bank.shutAllowed (e : Bank) (now : Nat) : Bool :=
  decide (e.state = .opened) && expired e.minOpenEnd now && e.writeRecovery.expiredAt now &&
    expired e.readToShutEnd now

/-- ROW_SHUT of the bank may be issued (R63). -/
def State.canShut (s : State) (b : Fin 8) : Bool := (s.bank b).shutAllowed s.now && s.settled

/-- A bank holds or is opening a row (R67, R70). -/
def Bank.hasRow (e : Bank) (row : Nat) : Bool :=
  decide ((e.state = .opening ∨ e.state = .opened) ∧ e.openRow = some row)

/-- A bank is OPEN at a row and unmarked, ready for a burst (R62, R69). -/
def Bank.readyFor (e : Bank) (row : Nat) : Bool :=
  decide (e.state = .opened ∧ e.openRow = some row ∧ e.mark = false)

/-- The effect of ROW_OPEN on its bank, issued at AC `t` (R60). -/
def Bank.opening (e : Bank) (u : Setup) (row t : Nat) : Bank :=
  { e with
    state := .opening
    openRow := some row
    openDelayEnd := some (t + u.openDelay)
    minOpenEnd := some (t + u.minOpen) }

/-- The effect of ROW_SHUT on its bank, issued at AC `t` (R63). -/
def Bank.shutting (e : Bank) (u : Setup) (t : Nat) : Bank :=
  { e with
    state := .shutting
    openRow := none
    closeTimeEnd := some (t + u.closeTime)
    mark := false }

/-- Set the close mark of a bank that holds a given row; any other bank is left as it is (R67). -/
def Bank.markRow (e : Bank) (row : Nat) : Bank :=
  if e.hasRow row then { e with mark := true } else e

/-- CLOSE_ALL at one bank: an OPEN or OPENING bank is marked (R75). -/
def Bank.markOpen (e : Bank) : Bank :=
  if e.state = .opening ∨ e.state = .opened then { e with mark := true } else e

end Sys2Proof.Machine
end

