-- ==== Sys2Proof/Machine/Operands.lean ====
section
/-! DEFINITION. What a command or a job acts on: the address split, segments and blocks, the
submission fields and their checks, the ring. -/

namespace Sys2Proof.Machine

/-! ### Address split, segments and blocks -/

/-- The column of an array word address (R2). -/
def columnOf (g : Geometry) (a : Nat) : Nat := a % g.cols

/-- The bank of an array word address (R2). -/
def bankOf (g : Geometry) (a : Nat) : Fin 8 := ⟨a / g.cols % 8, Nat.mod_lt _ (by decide)⟩

/-- The row of an array word address (R2). -/
def rowOf (g : Geometry) (a : Nat) : Nat := a / (g.cols * 8)

/-- A segment: the part of a request in one row of one bank (R3). -/
structure Segment where
  bank : Fin 8
  row : Nat
  column : Nat
  count : Nat
  deriving DecidableEq, Repr

/-- The segment that begins at an address with `remaining` words still to cover (R3). -/
def segmentFrom (g : Geometry) (a remaining : Nat) : Segment where
  bank := bankOf g a
  row := rowOf g a
  column := columnOf g a
  count := min remaining (g.cols - columnOf g a)

/-- Segment 0 of a request (R3). -/
def Request.firstSegment (r : Request) (g : Geometry) : Segment := segmentFrom g r.address r.length

/-- Segment 1 of a request, when it has one (R3: a request has one or two). -/
def Request.secondSegment (r : Request) (g : Geometry) : Option Segment :=
  let n := (r.firstSegment g).count
  if n < r.length then some (segmentFrom g (r.address + n) (r.length - n)) else none

/-- The segment of a request with a given number (R3). -/
def Request.segment (r : Request) (g : Geometry) (i : Nat) : Option Segment :=
  if i = 0 then some (r.firstSegment g) else if i = 1 then r.secondSegment g else none

/-- A segment lies in a bank and row. -/
def Segment.liesIn (x : Segment) (b : Fin 8) (row : Nat) : Bool := decide (x.bank = b ∧ x.row = row)

/-- A block of a request and the burst that moves it (R4): `base` is the array address of the
block's first word, `first` and `count` the request words it carries. -/
structure Block where
  bank : Fin 8
  row : Nat
  column : Nat
  length : Nat
  base : Nat
  first : Nat
  count : Nat
  endsSegment : Bool
  deriving DecidableEq, Repr

/-- The block at a position of a request: `position` request words are already covered (R4). -/
def Request.blockAt (r : Request) (g : Geometry) (position : Nat) : Option Block :=
  if position < r.length then
    let a := r.address + position
    let p := columnOf g a
    let last := p + (segmentFrom g a (r.length - position)).count - 1
    let b := p - p % 4
    let n := if b % 8 = 0 ∧ b + 4 ≤ last then 8 else 4
    some {
      bank := bankOf g a
      row := rowOf g a
      column := b
      length := n
      base := a - (p - b)
      first := position
      count := min (b + n) (last + 1) - p
      endsSegment := decide (last < b + n) }
  else none

/-- A READ or COMPARE moves its blocks with READ_BURSTs (R89). -/
def Kind.reads : Kind → Bool
  | .read => true
  | .write => false
  | .fill => false
  | .compare => true

/-- The buffer word paired with request word `i` (R21, R42). -/
def pairedWord (slot i : Nat) : Nat := slot * 64 + i

/-- The words a WRITE or FILL drives for a block: span words (R53) or the pattern (R55). -/
def Request.writeData (r : Request) (b : Staging) (x : Block) : Option (List Word) :=
  match r.kind, r.slot, r.pattern with
  | .write, some slot, _ =>
    some ((List.range x.length).map fun k => b.word (pairedWord slot (x.base + k - r.address)))
  | .fill, _, some pattern => some (List.replicate x.length pattern)
  | _, _, _ => none

/-- The next block of the ACTIVE record (R88, R89). -/
def Active.block (a : Active) (g : Geometry) : Option Block := a.req.blockAt g a.position

/-- The ACTIVE record has a block not yet issued. -/
def Active.hasBlock (a : Active) : Bool := decide (a.position < a.req.length)

/-- The word ranges of two requests overlap (R84). -/
def Request.overlaps (a b : Request) : Bool :=
  decide (a.address ≤ b.address + b.length - 1 ∧ b.address ≤ a.address + a.length - 1)

/-- A hazard between an earlier and a later request: they overlap and one of them is a WRITE or a
FILL (R84). -/
def Request.conflicts (a b : Request) : Bool :=
  a.overlaps b && (!a.kind.reads || !b.kind.reads)

/-- The lower of two sequence numbers, with the counter as it stands (R26): the number further
back from the counter is the earlier. -/
def lowerSeq (counter a b : Word) : Bool := decide ((counter - b).toNat < (counter - a).toNat)

/-! ### Submission -/

/-- Field codes of SUB_CTRL (R189). -/
def kindOfCode (code : Nat) : Option Kind :=
  match code with
  | 0 => some .read
  | 1 => some .write
  | 2 => some .fill
  | 3 => some .compare
  | _ => none

/-- The code of a kind (R189). -/
def Kind.code : Kind → Nat
  | .read => 0
  | .write => 1
  | .fill => 2
  | .compare => 3

/-- Field codes of SUB_CTRL (R189). -/
def closeOfCode (code : Nat) : Option CloseOption :=
  match code with
  | 0 => some .policy
  | 1 => some .keep
  | 2 => some .shut
  | _ => none

/-- The submission address: bits 27..16 and 15..0 (R187). -/
def Bus.subAddress (u : Bus) : Nat := u.subAddrHi.toNat * 65536 + u.subAddrLo.toNat

/-- The submitted tag (R189). -/
def Bus.subTag (u : Bus) : Byte := u.subCtrl.setWidth 8

/-- The request in the submission registers, when its kind and close option name one (R189, R25:
the slot is absent for a FILL, the pattern for the other kinds). -/
def Bus.submission (u : Bus) : Option Request :=
  match kindOfCode (u.subCtrl.extractLsb' 8 3).toNat, closeOfCode (u.subCtrl.extractLsb' 11 2).toNat with
  | some kind, some close =>
    some {
      tag := u.subTag
      kind := kind
      address := u.subAddress
      length := u.subLength.toNat
      slot := if kind = .fill then none else some u.subSlot.toNat
      closeOption := close
      urgent := u.subCtrl.getLsbD 13
      notify := u.subCtrl.getLsbD 14
      pattern := if kind = .fill then some u.subPattern else none }
  | _, _ => none

/-- The number of live records (R27). -/
def Pool.live (p : Pool) : Nat :=
  p.queued.length + (if p.active.isSome then 1 else 0) + p.done.length

/-- The free count (R27). -/
def Pool.free (p : Pool) : Nat := 16 - p.live

/-- A live record holds the tag (check 4 of R23, R30). -/
def Pool.tagLive (p : Pool) (tag : Byte) : Bool :=
  p.queued.any (fun q => q.req.tag == tag) || (p.active.map (fun a => a.req.tag)) == some tag ||
    p.done.any (fun d => d.tag == tag)

/-- The requests of the QUEUED and ACTIVE records, the ACTIVE one first. -/
def Pool.unfinished (p : Pool) : List Request :=
  (p.active.map (fun a => a.req)).toList ++ p.queued.map (fun q => q.req)

/-- Check 5 of R23. -/
def Request.lengthBad (r : Request) : Bool :=
  if r.kind.reads then decide (r.length = 0 ∨ 512 < r.length)
  else decide (r.length < 4 ∨ 512 < r.length ∨ r.length % 4 ≠ 0)

/-- Check 6 of R23. -/
def Request.alignBad (r : Request) : Bool := !r.kind.reads && decide (r.address % 4 ≠ 0)

/-- Check 8 of R23. -/
def Request.slotBad (r : Request) : Bool :=
  match r.slot with
  | none => false
  | some slot => decide (32 < slot + spanSlots r.length)

/-- Check 9 of R23. -/
def Request.slotBusy (r : Request) (b : Staging) : Bool :=
  match r.slot with
  | none => false
  | some slot => b.spanBusy slot (spanSlots r.length)

/-- The checks 4 to 9 of R23, in order; a request that passes them all is accepted. -/
def State.checkRequest (s : State) (r : Request) : SubmitStatus :=
  if s.pool.tagLive r.tag then .tagBusy
  else if r.lengthBad then .lengthFault
  else if r.alignBad then .alignFault
  else if s.setup.workGeometry.size < r.address + r.length then .rangeFault
  else if r.slotBad then .slotFault
  else if r.slotBusy s.staging then .slotBusy
  else .accepted

/-- The nine checks of R23, in order. -/
def State.checkPost (s : State) : SubmitStatus :=
  if s.pool.free = 0 then .poolFull
  else if s.ctrl.arrayState = .cold ∨ s.ctrl.arrayState = .starting then .notReady
  else match s.bus.submission with
    | none => .badKind
    | some r => s.checkRequest r

/-! ### The ring -/

/-- The ring words: ring size × 32 (R121). -/
def Capture.ringWords (c : Capture) : Nat := c.size.toNat * 32

/-- The fill: (producer − consumer) mod ring words (R123). -/
def Capture.fill (c : Capture) : Nat := (c.producer + c.ringWords - c.consumer) % c.ringWords

/-- The ring has room for a chunk: the fill is at most ring words − 64 (R125). -/
def Capture.hasRoom (c : Capture) : Bool := decide (c.fill + 64 ≤ c.ringWords)

/-- A chunk is demanded (R125). -/
def Capture.demand (c : Capture) : Bool :=
  decide (c.state ≠ .idle ∧ 32 ≤ c.fifo.length) && c.hasRoom

/-- The demand is an urgent chunk (R125). -/
def Capture.urgentDemand (c : Capture) : Bool := c.demand && decide (128 ≤ c.fifo.length)

/-- The ring descriptor is valid for a geometry (R122). -/
def Capture.ringValid (c : Capture) (g : Geometry) : Bool :=
  decide (c.base.toNat % 32 = 0 ∧ 2 ≤ c.size.toNat ∧ c.base.toNat + c.ringWords ≤ g.size ∧
    c.mark.toNat % 32 = 0 ∧ c.mark.toNat < c.ringWords)

/-- A consumer write passes its check (R129). -/
def Capture.consumerPasses (c : Capture) (w : Nat) : Bool :=
  decide (w = c.producer ∨
    (w % 32 = 0 ∧ w < c.ringWords ∧ (w + c.ringWords - c.consumer) % c.ringWords ≤ c.fill))

/-- The array address of the next chunk: base + producer (R126). -/
def Capture.chunkAddress (c : Capture) : Nat := c.base.toNat + c.producer

end Sys2Proof.Machine
end

