-- ==== Sys2Proof/Machine/Claims.lean ====
section
/-! DEFINITION. The claims on the array command path and the order of their grant (R79, R80, R82,
R83). A claim is a condition on the state; it stands while the condition holds. -/

namespace Sys2Proof.Machine

/-- The urgent refresh claim: the balance is at or above URGENT_LEVEL (R107). -/
def State.urgentClaim (s : State) : Bool :=
  decide ((s.refresh.urgentLevel : Int) ≤ s.refresh.balance)

/-- The drain claim stands: asked for and not yet granted (R82). -/
def State.drainClaim (s : State) : Bool :=
  match s.ctrl.progress with
  | .draining _ => true
  | _ => false

/-- The bank of the shut claim to be granted: the lowest marked bank that satisfies R63 (R68). -/
def State.shutClaim (s : State) : Option (Fin 8) :=
  bankNumbers.find? fun b => (s.bank b).mark && s.canShut b

/-- The ACTIVE record's burst claim (R79): it has a block, is not being aborted (R97), and is not
kept from claiming by the read hold (R93). -/
def State.burstClaim (s : State) : Bool :=
  match s.pool.active with
  | none => false
  | some a => a.hasBlock && !a.aborting && !(a.req.kind.reads && s.holdInForce)

/-- Host work may run: READY and no drain claim (R83). -/
def State.hostWorkMayRun (s : State) : Bool :=
  decide (s.ctrl.arrayState = .ready) && !s.drainClaim

/-- The selection claim (R79). -/
def State.selectionClaim (s : State) : Bool :=
  s.pool.active.isNone && !s.pool.queued.isEmpty && s.hostWorkMayRun

/-- The opportunistic claim, apart from the absence of every other claim (R109). -/
def State.aboveFloor (s : State) : Bool := decide (s.refresh.pullinFloor < s.refresh.balance)

/-- The arbiter may grant: no job holds the path, no SOFT_RESET is pending (R101), no restore is
due (R162), and the array state is one in which jobs are granted (R83; COLD: R138). -/
def State.arbiterOpen (s : State) : Bool :=
  decide (s.sched.job = none) && !s.bus.softPending && !s.ctrl.restoreDue &&
    decide (s.ctrl.arrayState = .ready ∨ s.ctrl.arrayState = .setting ∨
      s.ctrl.arrayState = .aligning)

/-- A chunk claim that may be granted before the drain is urgent; no claim above it stands (R80). -/
def State.urgentChunkGrant (s : State) : Bool :=
  s.arbiterOpen && s.capture.urgentDemand && !s.urgentClaim

/-- The drain claim is granted: no ACTIVE record and no higher claim (R80, R82). -/
def State.drainGrant (s : State) : Option Drain :=
  match s.ctrl.progress with
  | .draining d =>
    if s.arbiterOpen && !s.urgentClaim && !s.capture.urgentDemand && s.pool.active.isNone then
      some d
    else none
  | _ => none

/-- A shut claim is granted (R80): no urgent claim stands, and no drain claim that could be
granted. -/
def State.shutGrant (s : State) : Option (Fin 8) :=
  if s.arbiterOpen && !s.urgentClaim && !s.capture.urgentDemand &&
      !(s.drainClaim && s.pool.active.isNone) then s.shutClaim
  else none

/-- The ACTIVE record's next burst job is granted (R80). -/
def State.burstGrant (s : State) : Bool :=
  s.arbiterOpen && s.burstClaim && !s.urgentClaim && !s.capture.urgentDemand &&
    s.shutClaim.isNone

/-- A normal chunk is granted (R80, R82). -/
def State.normalChunkGrant (s : State) : Bool :=
  s.arbiterOpen && s.capture.demand && !s.capture.urgentDemand && s.hostWorkMayRun &&
    !s.urgentClaim && s.shutClaim.isNone && !s.burstClaim

/-- A selection is granted (R80). -/
def State.selectionGrant (s : State) : Bool :=
  s.arbiterOpen && s.selectionClaim && !s.urgentClaim && !s.capture.demand && s.shutClaim.isNone

/-- Opportunistic refresh is granted (R80, R109): READY, no drain claim and no other claim. -/
def State.pullInGrant (s : State) : Bool :=
  s.arbiterOpen && s.hostWorkMayRun && s.aboveFloor && !s.urgentClaim && !s.capture.demand &&
    s.shutClaim.isNone && !s.burstClaim && !s.selectionClaim

/-- The bank and row that the job on the path needs for its next burst (R69, R89, R126). -/
def State.jobTarget (s : State) : Option (Fin 8 × Nat) :=
  let g := s.setup.workGeometry
  match s.sched.job with
  | some .recordBurst =>
    match s.pool.active with
    | some a => (a.block g).map fun x => (x.bank, x.row)
    | none => none
  | some (.chunk _) => some (bankOf g s.capture.chunkAddress, rowOf g s.capture.chunkAddress)
  | _ => none

/-- The job on the path is bringing every bank to CLOSED (R66): a refresh group, a procedure's
shut-all, the shut-all of a restore. -/
def State.shuttingAll (s : State) : Bool :=
  match s.sched.job with
  | some .urgentRefresh => true
  | some .pullIn => true
  | some .procedure =>
    match s.ctrl.progress with
    | .shutAll _ => true
    | .restoreShut _ => true
    | _ => false
  | _ => false

/-- The bank to which the job on the path issues ROW_SHUT now (R66, R68, R69). -/
def State.shutTarget (s : State) : Option (Fin 8) :=
  match s.sched.job with
  | some (.shutClaim b) => if s.canShut b then some b else none
  | _ =>
    if s.shuttingAll then bankNumbers.find? fun b => s.canShut b
    else match s.jobTarget with
      | some (b, row) => if s.canShut b && !(s.bank b).readyFor row then some b else none
      | none => none

/-- A burst or a RENEW is in flight (R7, R191). -/
def State.inFlight (s : State) : Bool := !s.sched.inFlight.isEmpty || !s.renewOver

end Sys2Proof.Machine
end

