-- ==== Sys2Proof/Machine/Records.lean ====
section
/-! DEFINITION. Shared operations on records: becoming DONE, the row decisions at segment and chunk
ends, hazards and the choice of a selection. -/

namespace Sys2Proof.Machine

/-! ### Becoming DONE -/

/-- The suspect field (R33): present for READ and COMPARE, fixed from the retention-lost flag. -/
def suspectField (kind : Kind) (lost : Bool) : Option Bool :=
  if kind.reads then some lost else none

/-- The completion of a QUEUED record under ABORT (R32, R96). -/
def Queued.abortedCompletion (q : Queued) (lost : Bool) : Completion where
  tag := q.req.tag
  kind := q.req.kind
  seq := q.seq
  result := .aborted
  wordsDone := 0
  suspect := suspectField q.req.kind lost
  mismatch := none

/-- The result and mismatch fields of a record finished by its last burst (R34, R92). -/
def Active.outcome (a : Active) : Result × Option (Nat × Nat) :=
  match a.req.kind, a.tally.first with
  | .compare, some first => (.mismatch, some (first, a.tally.count))
  | _, _ => (.done, none)

/-- The completion of the ACTIVE record (R32 to R34). -/
def Active.completion (a : Active) (result : Result) (mismatch : Option (Nat × Nat))
    (lost : Bool) : Completion where
  tag := a.req.tag
  kind := a.req.kind
  seq := a.seq
  result := result
  wordsDone := a.wordsDone
  suspect := suspectField a.req.kind lost
  mismatch := mismatch

/-- A record becomes DONE (R31): its slots return, it joins the tail of the completion queue, and
COMPLETION is raised if its notify option is yes. -/
def State.retire (s : State) (r : Request) (c : Completion) : State :=
  { s with
    pool.done := s.pool.done ++ [c]
    staging := s.staging.setOwner r none
    events.flags := if r.notify then s.events.flags ||| Event.completion.mask else s.events.flags }

/-- The ACTIVE record becomes DONE (R28, R31). -/
def State.finishActive (s : State) (a : Active) (result : Result)
    (mismatch : Option (Nat × Nat)) : State :=
  { s.retire a.req (a.completion result mismatch s.refresh.retentionLost) with
    pool.active := none }

/-- The QUEUED records become DONE/ABORTED one after another (R96). -/
def State.retireQueued (s : State) : List Queued → State
  | [] => s
  | q :: qs => (s.retire q.req (q.abortedCompletion s.refresh.retentionLost)).retireQueued qs

/-! ### Row decisions -/

/-- The row policy leaves a row open (R72, R73): `wanted` says that under ADAPTIVE some further
segment or chunk position lies in the row. -/
def State.policyKeeps (s : State) (b : Fin 8) (row : Nat) (wanted : Bool) : Bool :=
  match s.table.policy with
  | .openPage => true
  | .closedPage => false
  | .adaptive =>
    s.pool.queued.any (fun q => (q.req.firstSegment s.setup.workGeometry).liesIn b row) || wanted

/-- The close mark of bank `b` is set while its open row is `row` (R67). -/
def State.markRow (s : State) (b : Fin 8) (row : Nat) : State :=
  s.setBank b ((s.bank b).markRow row)

/-- The decision at a segment end, by the record's close option (R71). `next` is the record's next
segment when it has one (R72). -/
def State.segmentDecision (s : State) (close : CloseOption) (b : Fin 8) (row : Nat)
    (next : Option Segment) : State :=
  match close with
  | .keep => s
  | .shut => s.markRow b row
  | .policy =>
    if s.policyKeeps b row ((next.map (fun x => x.liesIn b row)).getD false) then s
    else s.markRow b row

/-- Some segment of the ACTIVE record, current or next, lies in a bank and row (R73). -/
def State.activeWants (s : State) (b : Fin 8) (row : Nat) : Bool :=
  match s.pool.active with
  | none => false
  | some a =>
    let g := s.setup.workGeometry
    ((a.req.segment g a.segment).map (fun x => x.liesIn b row)).getD false ||
      ((a.req.segment g (a.segment + 1)).map (fun x => x.liesIn b row)).getD false

/-- The next chunk position lies in a bank and row while capture is RUNNING or DRAINING (R73), taken from
the producer offset as it stands at the completion (the model's reading, log 31). -/
def State.captureWants (s : State) (b : Fin 8) (row : Nat) : Bool :=
  let g := s.setup.workGeometry
  decide (s.capture.state ≠ .idle ∧ bankOf g s.capture.chunkAddress = b ∧
    rowOf g s.capture.chunkAddress = row)

/-- The decision at a chunk end (R73). -/
def State.chunkDecision (s : State) (b : Fin 8) (row : Nat) : State :=
  if s.policyKeeps b row (s.activeWants b row || s.captureWants b row) then s else s.markRow b row

/-! ### Selection -/

/-- A QUEUED record is hazard-blocked by one of the records accepted before it (R84). -/
def blockedBy (earlier : List Queued) (q : Queued) : Bool :=
  earlier.any fun e => e.req.conflicts q.req

/-- The eligible records of a queue, given the records accepted before it (R84). -/
def eligibleFrom (earlier : List Queued) : List Queued → List Queued
  | [] => []
  | q :: qs =>
    if blockedBy earlier q then eligibleFrom (earlier ++ [q]) qs
    else q :: eligibleFrom (earlier ++ [q]) qs

/-- The first segment of a record is a row hit (R70). -/
def State.rowHit (s : State) (q : Queued) : Bool :=
  let x := q.req.firstSegment s.setup.workGeometry
  (s.bank x.bank).hasRow x.row

/-- Steps 2 and 3 of R85 within one urgency group: the first row hit, or else the first. -/
def State.chooseInGroup (s : State) (group : List Queued) : Option Queued :=
  match group.find? (fun q => s.rowHit q) with
  | some q => some q
  | none => group.head?

/-- The choice of R85 among the eligible records, which stand in acceptance order (R26). -/
def State.chooseFrom (s : State) (eligible : List Queued) : Option Queued :=
  match eligible.find? (fun q => decide (s.sched.ageLimit ≤ q.age)) with
  | some q => some q
  | none =>
    if eligible.any (fun q => q.req.urgent) then
      s.chooseInGroup (eligible.filter fun q => q.req.urgent)
    else s.chooseInGroup (eligible.filter fun q => !q.req.urgent)

/-- The record a selection chooses (R84, R85). -/
def State.chosen (s : State) : Option Queued :=
  s.chooseFrom (eligibleFrom [] s.pool.queued)

/-- The queue after a selection (R86): the chosen record leaves it, and every eligible record
passed over ages by 1, saturating at 15. -/
def passOver (chosen : Queued) (earlier : List Queued) : List Queued → List Queued
  | [] => []
  | q :: qs =>
    if q = chosen then passOver chosen (earlier ++ [q]) qs
    else
      (if blockedBy earlier q then q else { q with age := min 15 (q.age + 1) }) ::
        passOver chosen (earlier ++ [q]) qs

/-- A record at its selection (R88). -/
def Queued.activate (q : Queued) : Active where
  req := q.req
  seq := q.seq
  age := q.age
  paused := false
  segment := 0
  wordsDone := 0
  position := 0
  tally := { count := 0, first := none }
  aborting := false

/-- The job of the ACTIVE record ends when it finds the read hold in force once the bank is ready
for a READ_BURST (R89). -/
def State.endHeldBurst (s : State) : State :=
  match s.sched.job, s.pool.active with
  | some .recordBurst, some a =>
    match a.block s.setup.workGeometry with
    | some x =>
      if a.req.kind.reads && s.holdInForce && (s.bank x.bank).readyFor x.row then
        { s with sched.job := none }
      else s
    | none => s
  | _, _ => s

/-- The ACTIVE record is paused by a grant of urgent refresh or an urgent chunk while it has a
block not yet issued (R94). -/
def Pool.pause (p : Pool) : Pool :=
  { p with active := p.active.map fun a => { a with paused := a.paused || a.hasBlock } }

/-- The ACTIVE record's next burst job is granted: it is no longer paused (R94). -/
def Pool.resume (p : Pool) : Pool :=
  { p with active := p.active.map fun a => { a with paused := false } }

end Sys2Proof.Machine
end

