-- ==== Sys2Proof/Machine/Procedure.lean ====
section
/-! DEFINITION. Shared operations of the Array Controller: doze and wake, mode loads, the ends of
procedures, refresh serving, alignment. -/

namespace Sys2Proof.Machine

/-! ### Doze and wake -/

/-- A doze entry is in progress: from the doze decision to NAP_IN (R166). -/
def State.dozeEntry (s : State) : Bool :=
  match s.ctrl.progress with
  | .draining .doze => true
  | .shutAll .doze => true
  | .due .doze => true
  | _ => false

/-- A doze entry is abandoned (R167): the claim is withdrawn or the job ends, the state stays
READY, and the doze idle timer restarts with a full period. -/
def State.abandonDoze (s : State) : State :=
  { s with
    ctrl.progress := .idle
    ctrl.dozeTimer := s.dozeStart s.now
    sched.job := if s.sched.job = some .procedure then none else s.sched.job }

/-- A wake begins (R169): NAP_OUT is issued at once, clock enable rises, and the wake holds the
path until NAP_EXIT_TIME expires. -/
def State.beginWake (s : State) : State :=
  let t := s.issuePoint
  let u := s.issue .napOut t
  { u with
    ctrl.clockEnable := true
    ctrl.progress := .waking (t + s.setup.napExitTime)
    sched.job := some .procedure }

/-- A wake is in progress. -/
def State.waking (s : State) : Bool :=
  match s.ctrl.progress with
  | .waking _ => true
  | _ => false

/-- An event of a kind that R169 names is taken: it begins a wake in DOZING, unless one is in
progress, and abandons a doze entry before NAP_IN (R167). -/
def State.wakeCause (s : State) : State :=
  if s.ctrl.arrayState = .dozing then
    if s.waking then s else s.beginWake
  else if s.dozeEntry then s.abandonDoze
  else s

/-- A chunk demand is a wake cause (R169). -/
def State.demandCause (s : State) : State := if s.capture.demand then s.wakeCause else s

/-! ### Entering READY -/

/-- The array state becomes READY and the procedure's job ends; the doze idle timer starts
(R143, R150, R157, R162, R164, R175). -/
def State.enterReady (s : State) : State :=
  { s with
    ctrl.arrayState := .ready
    ctrl.indication := .none
    ctrl.progress := .idle
    ctrl.dozeTimer := s.dozeStart s.now
    sched.job := none }

/-- The refresh-period timer starts with a full period (R103). -/
def State.startRefreshTimer (s : State) : State :=
  { s with refresh.timer := some (s.now + s.setup.refreshPeriod) }

/-- The start-up ends (R143, R115). -/
def State.endStartUp (s : State) : State :=
  ({ s with refresh.balance := 0 }.startRefreshTimer.enterReady).raiseEvent .ready

/-- The exit sequence returns the array to READY (step 4 of R175, R116). -/
def State.endRetainExit (s : State) : State :=
  (s.startRefreshTimer.enterReady).raiseEvent .ready

/-- SET_MODE ends when no load word is left to load and the conditions of a first load hold
(R150). -/
def State.endSetModeIfNothingToLoad (s : State) : State :=
  if s.ctrl.progress = .due .setMode && s.ctrl.loadWords.isEmpty && s.allClosed && s.renewOver &&
      s.settled && s.modeHoldOver then
    s.enterReady.raiseEvent .ready
  else s

/-- The all-closed condition has come to hold in a procedure's shut-all: the procedure looks at
the urgent refresh claim once (R149, R154, R172); a doze entry does not (R166). -/
def State.lookAtRefresh (s : State) : State :=
  match s.ctrl.progress with
  | .shutAll d =>
    if s.allClosed then
      { s with
        ctrl.progress := if s.urgentClaim && decide (d ≠ .doze) then .renewing d else .due d }
    else s
  | _ => s

/-- The restore ends when all banks are CLOSED, and the mode-settle window it waits for has expired
(R162). It raises no event. -/
def State.endRestore (s : State) : State :=
  match s.ctrl.progress with
  | .restoreShut settle => if s.allClosed && (s.settled || !settle) then s.enterReady else s
  | _ => s

/-- What a procedure does by itself once a window it waits for has expired. -/
def State.proceed (s : State) : State :=
  s.lookAtRefresh.endSetModeIfNothingToLoad.endRestore

/-! ### Mode loads -/

/-- A MODE_LOAD of a word is issued at AC `t` (R12, R146, R151): the array copy takes the value
(M0 with lock restart clear), the shadow's lock-restart field is cleared if it was set, a lock
restart outside STARTING starts the read hold, and the two mode windows start. -/
def State.loadMode (s : State) (word : Fin 4) (v : Word) (t : Nat) : State :=
  let u := s.issue (.modeLoad word v) t
  let restart := decide (word = 0) && lockRestart v
  { u with
    ctrl.copies := s.ctrl.copies.set word.val
      (some (if word = 0 then v &&& ~~~lockRestartMask else v)) word.isLt
    ctrl.shadows :=
      if restart then s.ctrl.shadows.set 0 (s.ctrl.shadows.get 0 &&& ~~~lockRestartMask)
      else s.ctrl.shadows
    ctrl.readHold :=
      if restart && decide (s.ctrl.arrayState ≠ .starting) then some (t + s.setup.lockTime)
      else s.ctrl.readHold
    table.modeHold := some (t + s.setup.modeHold)
    table.modeSettle := some (t + s.setup.modeSettle) }

/-- The value SET_MODE or the start-up loads into a word: the image's word; in STARTING, M1 has
align mode clear and M0 has lock restart set (R142, R150). -/
def Ctrl.imageValue (c : Ctrl) (word : Fin 4) : Word :=
  let v := c.loadImage.get word
  if c.arrayState = .starting then
    if word = 0 then v ||| lockRestartMask
    else if word = 1 then v &&& ~~~alignModeMask
    else v
  else v

/-- The load words of a SET_MODE (R148): those whose image differs from the array copy, in the
order M1, M2, M3, M0 (R150). -/
def Ctrl.wordsToLoad (c : Ctrl) (image : Vector Word 4) : List (Fin 4) :=
  [1, 2, 3, 0].filter fun i => decide (c.copies.get i ≠ some (image.get i))

/-- The MODE_LOAD that is due: its word, its value and what follows it. The all-closed condition
(R65) and the mode-hold window (R59) bar every one; the first of a SET_MODE also waits for the renew
and mode-settle windows (R150), and one that sets align mode for the renew window of the procedure's
last RENEW, if it issued one (R154, R158). -/
def State.dueLoad (s : State) : Option (Fin 4 × Word × Progress) :=
  if s.sched.job = some .procedure && s.allClosed && s.modeHoldOver then
    match s.ctrl.progress with
    | .loading =>
      match s.ctrl.loadWords with
      | i :: _ => some (i, s.ctrl.imageValue i, .loading)
      | [] => none
    | .due .setMode =>
      match s.ctrl.loadWords with
      | i :: _ => if s.renewOver && s.settled then some (i, s.ctrl.imageValue i, .loading) else none
      | [] => none
    | .due .align => (s.ctrl.copies.get 1).map fun v => (1, v ||| alignModeMask, .probing)
    | .renewed =>
      if s.renewOver then (s.ctrl.copies.get 1).map fun v => (1, v ||| alignModeMask, .probing)
      else none
    | .suspendClear =>
      (s.ctrl.copies.get 1).map fun v => (1, v &&& ~~~alignModeMask, .suspendSettle)
    | .suspendSet =>
      if s.renewOver then
        (s.ctrl.copies.get 1).map fun v => (1, v ||| alignModeMask, .suspendResume)
      else none
    | .endClear => (s.ctrl.copies.get 1).map fun v => (1, v &&& ~~~alignModeMask, .endSettle)
    | .exitLoad => (s.ctrl.copies.get 0).map fun v => (0, v ||| lockRestartMask, .exitSettle)
    | .restoreLoad =>
      (s.ctrl.copies.get 1).map fun v => (1, v &&& ~~~alignModeMask, .restoreShut true)
    | _ => none
  else none

/-! ### Alignment -/

/-- The alignment record is cleared and both lanes become searching (R153, R159). -/
def Ctrl.beginAlignment (c : Ctrl) : Ctrl :=
  { c with
    lanes := #v[{ Lane.reset with searching := true }, { Lane.reset with searching := true }]
    interruptions := 0
    nextTap := 0 }

/-- An alignment is running: in ALIGNING, or the alignment of STARTING (R160). -/
def Ctrl.alignmentRuns (c : Ctrl) : Bool :=
  match c.arrayState with
  | .aligning => true
  | .starting =>
    match c.progress with
    | .due .align => true
    | .probing => true
    | .probeDue => true
    | .endClear => true
    | .endSettle => true
    | _ => false
  | _ => false

/-- Between probes of an ALIGN, a standing urgent refresh claim suspends the alignment (R158). A probe
that is due at the completion of the one before is issued first (R163). -/
def State.suspendForRefresh (s : State) : State :=
  if s.ctrl.progress = .probing && s.ctrl.probe.isNone && s.urgentClaim &&
      decide (s.ctrl.arrayState = .aligning) then
    { s with ctrl.progress := .suspendClear }
  else s

/-- The Array Controller's part in R155: taps are probed, and the next probe is due at the completion
of the one before, or no urgent claim stands. -/
def State.probeWanted (s : State) : Bool :=
  match s.ctrl.progress with
  | .probing => !s.urgentClaim
  | .probeDue => true
  | _ => false

/-- A STROBE_PROBE may be issued (R14, R155). -/
def State.mayProbe (s : State) : Bool :=
  decide (s.sched.job = some .procedure) && s.probeWanted && s.ctrl.inAlignMode &&
    s.ctrl.probe.isNone && s.settled && !s.holdInForce &&
    decide (s.sched.lastReadEnd ≤ s.now ∧ s.sched.lastWriteEnd ≤ s.now)

/-- After a probe of an alignment that goes on, the next one is issued at the completion as long as no
hold and no urgent claim stands in the way (R155); an urgent claim suspends it (R158). -/
def State.nextProbe (s : State) : State :=
  if s.mayProbe then { s with ctrl.progress := .probeDue } else s.suspendForRefresh

/-- A balance that has come to be at or above URGENT_LEVEL is a wake cause (R167, R169), and
suspends an alignment between probes (R158). -/
def State.urgentCause (s : State) : State :=
  (if s.urgentClaim then s.wakeCause else s).suspendForRefresh

/-- A lane's tap at a probe of tap `t`: a searching lane is driven at `t`, any other at its working
delay (R155). -/
def Ctrl.drivenTap (c : Ctrl) (lane : Fin 2) (t : Nat) : BitVec 6 :=
  if (c.lanes.get lane).searching then BitVec.ofNat 6 t else c.delays.get lane

/-- A searching lane at the sampling of tap `t` (R156). A lane that is not searching takes no
sample (R155). -/
def Lane.sample (x : Lane) (t : Nat) (v : Bool) : Lane :=
  if x.searching then
    if 1 ≤ t ∧ v = true ∧ x.trace.getLast? = some false then
      { outcome := .locked, lockTap := some t, trace := x.trace ++ [v], searching := false }
    else if 63 ≤ t then
      { outcome := .failed, lockTap := none, trace := x.trace ++ [v], searching := false }
    else { x with trace := x.trace ++ [v] }
  else x

/-- The working delay of a lane after the sampling: the lock tap if it locked there (R156). -/
def Lane.delayAfter (x : Lane) (t : Nat) (v : Bool) (delay : BitVec 6) : BitVec 6 :=
  if x.searching && decide ((x.sample t v).outcome = .locked) then BitVec.ofNat 6 t else delay

/-- A searching lane whose alignment is ended by SOFT_RESET is FAILED (R162). -/
def Lane.giveUp (x : Lane) : Lane :=
  if x.searching then { x with outcome := .failed, lockTap := none, searching := false } else x

/-! ### Retain exit -/

/-- The exit sequence begins (steps 1 and 2 of R175): the pending divisor is compared and applied,
and RETAIN_OUT is issued. -/
def State.beginExit (s : State) : State :=
  let t := s.issuePoint
  let u := s.issue .retainOut t
  { u with
    setup.appliedDiv := some s.setup.pendingDiv
    ctrl.clockEnable := true
    ctrl.exitHeld := false
    ctrl.progress :=
      .exitTime (t + s.setup.retainExitTime) (decide (s.setup.appliedDiv ≠ some s.setup.pendingDiv))
    sched.job := some .procedure }

/-- An accepted RETAIN_EXIT is held or running (R174). -/
def Ctrl.exitUnderWay (c : Ctrl) : Bool :=
  c.exitHeld ||
    match c.progress with
    | .exitTime _ _ => true
    | .exitLoad => true
    | .exitSettle => true
    | _ => false

end Sys2Proof.Machine
end

