-- ==== Sys2Proof/Machine/ArrayOps.lean ====
section
/-! DEFINITION. The operations the sequencer issues on the array port (section 1.4). Each is issued
for the job that holds the path, when the conditions of its rules hold. Each has a function `…At` for
the AC of its issue, `none` while it may not be issued: the first AC at which the command lines are
free (R7) and, for a burst, R11 is satisfied. -/

namespace Sys2Proof.Machine

/-! ### ROW_OPEN and ROW_SHUT -/

/-- The bank and row of the ROW_OPEN that the job issues now (R60, R69). -/
def State.rowOpenTarget (s : State) : Option (Fin 8 × Nat) :=
  match s.jobTarget with
  | some (b, row) =>
    if (s.bank b).state = .closed && expired s.table.openSpacing s.now && s.renewOver &&
        s.settled then some (b, row)
    else none
  | none => none

/-- The AC of that ROW_OPEN. -/
def State.rowOpenAt (s : State) : Option Nat := s.rowOpenTarget.map fun _ => s.issuePoint

/-- ROW_OPEN of a bank at a row, issued at AC `t` (R8, R60). -/
def State.openRow (s : State) (b : Fin 8) (row t : Nat) : State :=
  { (s.issue (.rowOpen b row) t).setBank b ((s.bank b).opening s.setup row t) with
    table.openSpacing := some (t + s.setup.openSpacing) }

/-- ROW_OPEN (R60). -/
def execRowOpen (s : State) : Host.Outcome State Fault Refusal :=
  s.takeAt s.rowOpenAt fun t s =>
    match s.rowOpenTarget with
    | some (b, row) => s.openRow b row t
    | none => s

/-- The AC of the job's ROW_SHUT (R66, R68, R69). -/
def State.rowShutAt (s : State) : Option Nat := s.shutTarget.map fun _ => s.issuePoint

/-- A shut claim's job ends at its ROW_SHUT (R78). -/
def Sched.endShutClaim (u : Sched) : Sched :=
  { u with job := match u.job with
      | some (.shutClaim _) => none
      | j => j }

/-- ROW_SHUT of a bank, issued at AC `t` (R8, R63). -/
def State.shutRow (s : State) (b : Fin 8) (t : Nat) : State :=
  { (s.issue (.rowShut b) t).setBank b ((s.bank b).shutting s.setup t) with
    sched := s.sched.endShutClaim }

/-- ROW_SHUT (R63). -/
def execRowShut (s : State) : Host.Outcome State Fault Refusal :=
  s.takeAt s.rowShutAt fun t s =>
    match s.shutTarget with
    | some b => s.shutRow b t
    | none => s

/-! ### Bursts -/

/-- The first AC at which a READ_BURST of latency `l` may be issued (R7, R11): its data follow the
last read data, and the last write data by 2 AC. -/
def State.readIssuePoint (s : State) (l : Nat) : Nat :=
  max s.issuePoint (max s.sched.lastReadEnd (s.sched.lastWriteEnd + 2) - l)

/-- The first AC at which a WRITE_BURST of latency `w` may be issued (R7, R11): its data follow the
last write data, and the last read data by 1 AC. -/
def State.writeIssuePoint (s : State) (w : Nat) : Nat :=
  max s.issuePoint (max s.sched.lastWriteEnd (s.sched.lastReadEnd + 1) - w)

/-- The bank and the sequencer allow a burst at a bank and row (R14, R62). -/
def State.burstAllowed (s : State) (b : Fin 8) (row : Nat) : Bool :=
  (s.bank b).readyFor row && s.settled && !s.ctrl.inAlignMode

/-- The ACTIVE record and its next block, when its burst job holds the path and the bank is ready
for the burst (R62, R89). -/
def State.recordBlock (s : State) : Option (Active × Block) :=
  match s.sched.job, s.pool.active with
  | some .recordBurst, some a =>
    match a.block s.setup.workGeometry with
    | some x => if !a.aborting && s.burstAllowed x.bank x.row then some (a, x) else none
    | none => none
  | _, _ => none

/-- The READ_BURST that may be issued: the record, its block and the read latency of the array copy
of M0 (R9, R12). The read hold bars it (R151). -/
def State.dueRead (s : State) : Option (Active × Block × Nat) :=
  match s.recordBlock, s.ctrl.copies.get 0 with
  | some (a, x), some m0 =>
    if a.req.kind.reads && !s.holdInForce then some (a, x, readLatencyField m0) else none
  | _, _ => none

/-- The AC of that READ_BURST. -/
def State.readBurstAt (s : State) : Option Nat :=
  s.dueRead.map fun y => s.readIssuePoint y.2.2

/-- The ACTIVE record once a block has been issued (R89): its position moves on, and its segment
becomes 1 at the last block of segment 0 if there is a second. -/
def Active.advance (a : Active) (g : Geometry) (x : Block) : Active :=
  { a with
    position := a.position + x.count
    segment :=
      if x.endsSegment && decide (a.segment = 0) && (a.req.secondSegment g).isSome then 1
      else a.segment }

/-- A READ_BURST of the ACTIVE record's block, issued at AC `t` with read latency `l` (R9, R62,
R89). -/
def State.issueRead (s : State) (a : Active) (x : Block) (l t : Nat) : State :=
  { (s.issue (.readBurst x.bank x.column x.length) t).setBank x.bank
      { s.bank x.bank with readToShutEnd := some (t + s.setup.readToShut) } with
    pool.active := some (a.advance s.setup.workGeometry x)
    sched := { s.sched with
      job := none
      inFlight := s.sched.inFlight ++ [{
        isWrite := false
        user := .record
        bank := x.bank
        row := x.row
        base := x.base
        length := x.length
        data := []
        first := x.first
        count := x.count
        endsSegment := x.endsSegment
        done := t + l + x.length / 2
        delays := s.ctrl.delays }]
      lastReadEnd := t + l + x.length / 2 } }

/-- READ_BURST (R9). -/
def execReadBurst (s : State) : Host.Outcome State Fault Refusal :=
  s.takeAt s.readBurstAt fun t s =>
    match s.dueRead with
    | some (a, x, l) => s.issueRead a x l t
    | none => s

/-- Burst `j` of a chunk (R126): its block, and the FIFO words it takes. -/
def State.chunkBlock (s : State) (j : Nat) : Block × List Word :=
  let g := s.setup.workGeometry
  let a := s.capture.chunkAddress
  ({ bank := bankOf g a
     row := rowOf g a
     column := columnOf g a + 8 * j
     length := 8
     base := a + 8 * j
     first := 8 * j
     count := 8
     endsSegment := decide (j = 3) }, (s.capture.fifo.drop (8 * j)).take 8)

/-- The WRITE_BURST that may be issued for the job on the path, apart from its latency: its block,
its data, and whose it is (R10, R53, R55, R126). -/
def State.writeBlock (s : State) : Option (Block × List Word × BurstUser) :=
  match s.sched.job with
  | some (.chunk j) =>
    let y := s.chunkBlock j
    if s.burstAllowed y.1.bank y.1.row then some (y.1, y.2, .chunk (decide (j = 3))) else none
  | _ =>
    match s.recordBlock with
    | some (a, x) =>
      if a.req.kind.reads then none
      else (a.req.writeData s.staging x).map fun d => (x, d, .record)
    | none => none

/-- The WRITE_BURST that may be issued, with the write latency of the array copy of M2 (R10, R12). -/
def State.dueWrite (s : State) : Option ((Block × List Word × BurstUser) × Nat) :=
  match s.writeBlock, s.ctrl.copies.get 2 with
  | some y, some m2 => some (y, writeLatencyField m2)
  | _, _ => none

/-- The AC of that WRITE_BURST. -/
def State.writeBurstAt (s : State) : Option Nat := s.dueWrite.map fun y => s.writeIssuePoint y.2

/-- The part of a WRITE_BURST that is the same for records and chunks, issued at AC `t` with write
latency `w` (R10, R62): the data leave with the burst. -/
def State.issueWrite (s : State) (x : Block) (data : List Word) (user : BurstUser) (w t : Nat) :
    State :=
  { (s.issue (.writeBurst x.bank x.column x.length) t).setBank x.bank
      { s.bank x.bank with writeRecovery := .pending } with
    sched := { s.sched with
      inFlight := s.sched.inFlight ++ [{
        isWrite := true
        user := user
        bank := x.bank
        row := x.row
        base := x.base
        length := x.length
        data := data
        first := x.first
        count := x.count
        endsSegment := x.endsSegment
        done := t + w + x.length / 2
        delays := s.ctrl.delays }]
      lastWriteEnd := t + w + x.length / 2 } }

/-- The capture run ends when the FIFO is empty in DRAINING (R132). -/
def State.endRunIfEmpty (s : State) : State :=
  if s.capture.state = .draining && s.capture.fifo.isEmpty then
    State.raiseEvent { s with capture.state := .idle } .stopped
  else s

/-- MARK is set when the producer offset has come to the mark offset (R127). -/
def State.markIfReached (s : State) : State :=
  if s.capture.producer = s.capture.mark.toNat then s.raiseEvent .mark else s

/-- The advance at a chunk's fourth burst (R127): 32 words leave the FIFO and the producer moves on.
The job ends (R78). -/
def State.chunkAdvance (s : State) : State :=
  State.endRunIfEmpty <| State.markIfReached { s with
    capture.fifo := s.capture.fifo.drop 32
    capture.producer := (s.capture.producer + 32) % s.capture.ringWords
    sched.job := none }

/-- What the issue of a WRITE_BURST does for its job (R78, R89, R127). -/
def State.afterWrite (s : State) (x : Block) (user : BurstUser) : State :=
  match user with
  | .chunk true => s.chunkAdvance
  | .chunk false => { s with sched.job := some (.chunk (x.first / 8 + 1)) }
  | .record =>
    { s with
      sched.job := none
      pool.active := s.pool.active.map fun a => a.advance s.setup.workGeometry x }

/-- WRITE_BURST (R10). -/
def execWriteBurst (s : State) : Host.Outcome State Fault Refusal :=
  s.takeAt s.writeBurstAt fun t s =>
    match s.dueWrite with
    | some ((x, data, user), w) => (s.issueWrite x data user w t).afterWrite x user
    | none => s

/-! ### RENEW -/

/-- The job on the path may issue a RENEW: a refresh group, or a procedure that serves the urgent
claim (R108, R109, R149, R158, R172). -/
def State.renewingJob (s : State) : Bool :=
  match s.sched.job with
  | some .urgentRefresh => true
  | some .pullIn => true
  | some .procedure =>
    match s.ctrl.progress with
    | .renewing _ => true
    | .suspendRenew => true
    | _ => false
  | _ => false

/-- A RENEW may be issued (R65, R105). -/
def State.mayRenew (s : State) : Bool :=
  s.renewingJob && s.allClosed && s.renewOver && s.settled && decide (-8 < s.refresh.balance) &&
    decide (s.ctrl.arrayState ≠ .dozing ∧ s.ctrl.arrayState ≠ .retaining)

/-- The AC of that RENEW. -/
def State.renewAt (s : State) : Option Nat := if s.mayRenew then some s.issuePoint else none

/-- What a RENEW does for its job, by the balance it has left (R108, R109, R149, R158). -/
def State.afterRenew (s : State) : State :=
  match s.sched.job with
  | some .pullIn => { s with sched.job := none }
  | some .urgentRefresh => if 0 < s.refresh.balance then s else { s with sched.job := none }
  | _ =>
    if 0 < s.refresh.balance then s
    else
      match s.ctrl.progress with
      | .renewing d => { s with ctrl.progress := if d = .align then .renewed else .due d }
      | .suspendRenew => { s with ctrl.progress := .suspendSet }
      | _ => s

/-- RENEW (R12, R105). -/
def execRenew (s : State) : Host.Outcome State Fault Refusal :=
  s.takeAt s.renewAt fun t s =>
    State.afterRenew { s.issue .renew t with
      refresh.balance := s.refresh.balance - 1
      table.renewWindow := some (t + s.setup.renewTime) }

/-! ### MODE_LOAD and STROBE_PROBE -/

/-- The AC of the MODE_LOAD that is due. -/
def State.modeLoadAt (s : State) : Option Nat := s.dueLoad.map fun _ => s.issuePoint

/-- The load words left after the load of the first one; loads that are not of a list leave it as
it is (R142, R150). -/
def Ctrl.remainingLoads (c : Ctrl) : List (Fin 4) :=
  match c.progress with
  | .loading => c.loadWords.tail
  | .due .setMode => c.loadWords.tail
  | _ => c.loadWords

/-- MODE_LOAD (R12, R146, R151). -/
def execModeLoad (s : State) : Host.Outcome State Fault Refusal :=
  s.takeAt s.modeLoadAt fun t s =>
    match s.dueLoad with
    | some (word, v, next) =>
      State.suspendForRefresh { s.loadMode word v t with
        ctrl.progress := next
        ctrl.loadWords := s.ctrl.remainingLoads }
    | none => s

/-- The AC of that STROBE_PROBE. -/
def State.strobeProbeAt (s : State) : Option Nat := if s.mayProbe then some s.issuePoint else none

/-- STROBE_PROBE (R14, R155). -/
def execStrobeProbe (s : State) : Host.Outcome State Fault Refusal :=
  s.takeAt s.strobeProbeAt fun t s =>
    { s.issue .strobeProbe t with
      ctrl.progress := .probing
      ctrl.probe := some {
        point := t + s.setup.probeTime
        tap := s.ctrl.nextTap
        driven := #v[s.ctrl.drivenTap 0 s.ctrl.nextTap, s.ctrl.drivenTap 1 s.ctrl.nextTap] } }

/-! ### NAP_IN and RETAIN_IN -/

/-- A doze or retain entry may issue its last operation (R65, R166, R172). -/
def State.entryDue (s : State) (d : Drain) : Bool :=
  decide (s.sched.job = some .procedure) && decide (s.ctrl.progress = .due d) && s.allClosed &&
    s.renewOver && s.settled

/-- The AC of the NAP_IN. -/
def State.napInAt (s : State) : Option Nat := if s.entryDue .doze then some s.issuePoint else none

/-- NAP_IN (R13, R166). -/
def execNapIn (s : State) : Host.Outcome State Fault Refusal :=
  s.takeAt s.napInAt fun t s =>
    { s.issue .napIn t with
      ctrl.arrayState := .dozing
      ctrl.clockEnable := false
      ctrl.progress := .idle
      ctrl.dozeTimer := none
      sched.job := none }

/-- The AC of the RETAIN_IN. -/
def State.retainInAt (s : State) : Option Nat :=
  if s.entryDue .retain then some s.issuePoint else none

/-- RETAIN_IN (R13, R172): the refresh account is frozen (R116). -/
def execRetainIn (s : State) : Host.Outcome State Fault Refusal :=
  s.takeAt s.retainInAt fun t s =>
    { s.issue .retainIn t with
      ctrl.arrayState := .retaining
      ctrl.indication := .none
      ctrl.clockEnable := false
      ctrl.progress := .idle
      ctrl.dozeTimer := none
      ctrl.retainMin := some (t + s.setup.retainMinTime)
      refresh.timer := none
      sched.job := none }

end Sys2Proof.Machine
end

