-- ==== Sys2Proof/Machine/Commands.lean ====
section
/-! DEFINITION. The meanings of the writes to the command register (R190). A refused command
changes the command status and nothing else (R184). -/

namespace Sys2Proof.Machine

/-- The command status after a valid command write: its code and outcome (R190). -/
def State.answer (s : State) (code : BitVec 4) (o : CommandOutcome) : State :=
  { s with bus.lastCode := code, bus.outcome := o }

/-- A command in a state that accepts it, or else refused with STATE (R190). -/
def State.command (s : State) (code : BitVec 4) (outcome : CommandOutcome) (effect : State) :
    Host.Outcome State Fault Refusal :=
  s.take (if outcome = .accepted then effect.answer code .accepted else s.answer code outcome)

/-- START_ARRAY's outcome (R140). -/
def State.startArrayOutcome (s : State) : CommandOutcome :=
  if s.ctrl.arrayState ≠ .cold then .state
  else if validImage s.ctrl.shadows then .accepted
  else .modeFault

/-- START_ARRAY accepted (R140, R141): image and working geometry are taken, the RESET_HOLD phase
begins, and the pending divisor is applied (R17). The procedure holds the path as one job. -/
def State.startArray (s : State) : State :=
  { s with
    ctrl.arrayState := .starting
    ctrl.indication := .starting
    ctrl.loadImage := s.ctrl.shadows
    ctrl.progress := .resetHold (s.now + s.setup.resetHoldUnits * 1024)
    setup.workGeometry := s.setup.hostGeometry
    setup.appliedDiv := some s.setup.pendingDiv
    sched.job := some .procedure }

/-- START_ARRAY (R140). -/
def execStartArray (s : State) : Host.Outcome State Fault Refusal :=
  s.command 1 s.startArrayOutcome s.startArray

/-- READY or DOZING with no retain entry pending: where SET_MODE and ALIGN are taken (R148,
R153). -/
def State.procedureAllowed (s : State) : Bool :=
  decide ((s.ctrl.arrayState = .ready ∨ s.ctrl.arrayState = .dozing) ∧
    s.ctrl.indication ≠ .retainPending)

/-- A procedure command asks for the array: it is a wake cause in DOZING and abandons a doze entry
(R167, R169); in READY its drain claim is raised at the command, in DOZING at the end of the wake
(R148, R153, R171). -/
def State.askForArray (s : State) (d : Drain) : State :=
  let u := s.wakeCause
  if s.ctrl.arrayState = .dozing then u else { u with ctrl.progress := .draining d }

/-- SET_MODE's outcome (R148). -/
def State.setModeOutcome (s : State) : CommandOutcome :=
  if !s.procedureAllowed then .state
  else if validImage s.ctrl.shadows then .accepted
  else .modeFault

/-- SET_MODE accepted (R148). The working set is loaded before a wake begins, so the wake's window has
the new value (log 29). The doze idle timer stops with READY (R164). -/
def State.setMode (s : State) : State :=
  let u := { s with setup := s.setup.loadWorking }
  { u.askForArray .setMode with
    ctrl.arrayState := .setting
    ctrl.indication := .setting
    ctrl.loadImage := s.ctrl.shadows
    ctrl.loadWords := s.ctrl.wordsToLoad s.ctrl.shadows
    ctrl.dozeTimer := none }

/-- SET_MODE (R148). -/
def execSetMode (s : State) : Host.Outcome State Fault Refusal :=
  s.command 2 s.setModeOutcome s.setMode

/-- ALIGN accepted (R153). -/
def State.startAlign (s : State) : State :=
  let u := s.askForArray .align
  { u with
    ctrl := { u.ctrl.beginAlignment with
      arrayState := .aligning
      indication := .aligning
      dozeTimer := none } }

/-- ALIGN (R153). -/
def execAlign (s : State) : Host.Outcome State Fault Refusal :=
  s.command 3 (if s.procedureAllowed then .accepted else .state) s.startAlign

/-- RETAIN_ENTER is accepted (R171): READY or DOZING, capture IDLE, no procedure indication. -/
def State.retainAllowed (s : State) : Bool :=
  decide ((s.ctrl.arrayState = .ready ∨ s.ctrl.arrayState = .dozing) ∧ s.capture.state = .idle ∧
    s.ctrl.indication = .none)

/-- RETAIN_ENTER (R171). -/
def execRetainEnter (s : State) : Host.Outcome State Fault Refusal :=
  s.command 4 (if s.retainAllowed then .accepted else .state)
    { s.askForArray .retain with ctrl.indication := .retainPending }

/-- RETAIN_EXIT (R174): the exit sequence begins at the command if the expiry of RETAIN_MIN has been
taken, or is held until it is: at the point of the expiry by R176, and at an AC after it with the expiry
not yet taken by the model's choice (log 3). -/
def execRetainExit (s : State) : Host.Outcome State Fault Refusal :=
  s.command 5
    (if s.ctrl.arrayState = .retaining && !s.ctrl.exitUnderWay then .accepted else .state)
    (if s.ctrl.retainMin = none then s.beginExit else { s with ctrl.exitHeld := true })

/-- Some bank is OPEN or OPENING. -/
def State.someRowOpen (s : State) : Bool :=
  decide (∃ b : Fin 8, (s.bank b).state = .opening ∨ (s.bank b).state = .opened)

/-- CLOSE_ALL accepted (R75): every OPEN or OPENING bank is marked. It abandons a doze entry whose
drain claim has not been granted, when it leaves a mark to be shut (R167). -/
def State.closeAll (s : State) : State :=
  let u := { s with table := s.table.mapBanks Bank.markOpen }
  if s.ctrl.progress = .draining .doze && s.someRowOpen then u.abandonDoze else u

/-- CLOSE_ALL (R75). -/
def execCloseAll (s : State) : Host.Outcome State Fault Refusal :=
  s.command 6 (if s.ctrl.arrayState = .ready then .accepted else .state) s.closeAll

/-- A burst of the ACTIVE record is in flight (R97). -/
def Sched.recordInFlight (u : Sched) : Bool :=
  u.inFlight.any fun x => decide (x.user = .record)

/-- A record burst job on the path ends (R97). -/
def Sched.endRecordJob (u : Sched) : Sched :=
  { u with job := if u.job = some .recordBurst then none else u.job }

/-- The ACTIVE record at an ABORT (R97): finished at the command, or at the completion of the last
of its bursts in flight. -/
def State.abortActive (s : State) : State :=
  match s.pool.active with
  | none => s
  | some a =>
    let u := { s with sched := s.sched.endRecordJob }
    if s.sched.recordInFlight then { u with pool.active := some { a with aborting := true } }
    else u.finishActive a .aborted none

/-- ABORT accepted (R96, R97): the QUEUED records, oldest first, then the ACTIVE one. -/
def State.abortAll (s : State) : State :=
  (State.retireQueued { s with pool.queued := [] } s.pool.queued).abortActive

/-- ABORT (R96). -/
def execAbort (s : State) : Host.Outcome State Fault Refusal :=
  s.command 7 (if s.ctrl.arrayState = .cold then .state else .accepted) s.abortAll

/-- CLEAR_RETENTION (R112). -/
def execClearRetention (s : State) : Host.Outcome State Fault Refusal :=
  s.command 8 (if s.ctrl.arrayState = .cold then .state else .accepted)
    { s with refresh.retentionLost := false }

/-- CAPTURE_START's outcome (R124). -/
def State.captureStartOutcome (s : State) : CommandOutcome :=
  if s.capture.state = .idle ∧ s.ctrl.indication ≠ .retainPending ∧
      (s.ctrl.arrayState = .ready ∨ s.ctrl.arrayState = .setting ∨ s.ctrl.arrayState = .aligning ∨
        s.ctrl.arrayState = .dozing) then
    if s.capture.ringValid s.setup.workGeometry then .accepted else .ringFault
  else .state

/-- CAPTURE_START (R124). -/
def execCaptureStart (s : State) : Host.Outcome State Fault Refusal :=
  s.command 9 s.captureStartOutcome
    { s with capture := { s.capture with
        state := .running
        fifo := []
        assembler := none
        producer := 0
        consumer := 0
        drops := 0
        pad := 0 } }

/-- The padding that makes a FIFO level a multiple of 32 (R131). -/
def padding (level : Nat) : Nat := (32 - level % 32) % 32

/-- CAPTURE_STOP accepted (R131, R132): padding, and DRAINING, or IDLE with STOPPED if the FIFO is
empty. A chunk demand that the padding raises is a wake cause (R169, log 25). -/
def State.captureStop (s : State) : State :=
  let n := padding s.capture.fifo.length
  let u := { s with
    capture.assembler := none
    capture.fifo := s.capture.fifo ++ List.replicate n 0
    capture.pad := n }
  if s.capture.fifo.isEmpty then State.raiseEvent { u with capture.state := .idle } .stopped
  else State.demandCause { u with capture.state := .draining }

/-- CAPTURE_STOP (R131). -/
def execCaptureStop (s : State) : Host.Outcome State Fault Refusal :=
  s.command 10 (if s.capture.state = .running then .accepted else .state) s.captureStop

/-- UNKNOWN_COMMAND_WRITE (R190): COMMAND_FAULT with the written value; the command status stays
as it was. A command code is not this row, and does not take place here (log 12). -/
def execUnknownCommandWrite (v : Word) (s : State) : Host.Outcome State Fault Refusal :=
  s.take (if 1 ≤ v.toNat ∧ v.toNat ≤ 11 then s else s.raiseFault .commandFault v)

end Sys2Proof.Machine
end

