-- ==== Sys2Proof/Machine/Completions.lean ====
section
/-! DEFINITION. The completions of operations in flight: READ_BURST, WRITE_BURST, STROBE_PROBE. -/

namespace Sys2Proof.Machine

/-! ### Strobe probes -/

/-- A probe completes at the expiry of PROBE_TIME (R14, R155). -/
def State.probeCompletionAt (s : State) : Option Nat := s.ctrl.probe.map fun p => s.pointOf p.point

/-- The sampling of a tap (R155, R156): each searching lane takes its sample and is decided. -/
def Ctrl.sampleTap (c : Ctrl) (tap : Nat) (v0 v1 : Bool) : Ctrl :=
  { c with
    lanes := #v[(c.lanes.get 0).sample tap v0, (c.lanes.get 1).sample tap v1]
    delays := #v[(c.lanes.get 0).delayAfter tap v0 (c.delays.get 0),
                 (c.lanes.get 1).delayAfter tap v1 (c.delays.get 1)]
    nextTap := tap + 1
    probe := none }

/-- Some lane is searching (R153, R157). -/
def Ctrl.searching (c : Ctrl) : Bool := (c.lanes.get 0).searching || (c.lanes.get 1).searching

/-- STROBE_PROBE_COMPLETION (R155 to R158, R163). -/
def execStrobeProbeCompletion (v0 v1 : Bool) (s : State) : Host.Outcome State Fault Refusal :=
  s.takeAt s.probeCompletionAt fun t s =>
    match s.ctrl.probe with
    | some p =>
      let u := { s.atAC t with ctrl := s.ctrl.sampleTap p.tap v0 v1 }
      if u.ctrl.searching then u.nextProbe else { u with ctrl.progress := .endClear }
    | none => s

/-! ### Bursts -/

/-- The words a READ_BURST has captured for the requested part of its block: request words `first`
and up (R5, R9). -/
def State.requestedWords (s : State) (r : Request) (x : Burst) : List Word :=
  (List.range x.count).map fun k => s.array.readBy x (r.address + (x.first + k))

/-- One comparison of a COMPARE (R54, R90): request word `i` against its span word. -/
def Tally.count1 (y : Tally) (i : Nat) (differs : Bool) : Tally :=
  if differs then { count := y.count + 1, first := some (y.first.getD i) } else y

/-- The comparisons of a run of request words from `i` up (R90). -/
def Tally.compare (y : Tally) (i : Nat) : List (Word × Word) → Tally
  | [] => y
  | (a, b) :: rest => (y.count1 i (decide (a ≠ b))).compare (i + 1) rest

/-- The span words of the requested part of a block (R21, R54). -/
def Staging.spanWords (b : Staging) (slot : Nat) (x : Burst) : List Word :=
  (List.range x.count).map fun k => b.word (pairedWord slot (x.first + k))

/-- The requested words of a READ_BURST reach the span of a READ (R52). -/
def State.storeRequested (s : State) (r : Request) (x : Burst) : State :=
  match r.kind, r.slot with
  | .read, some slot =>
    { s with staging.words :=
        s.staging.words.writeAll (pairedWord slot x.first) (s.requestedWords r x) }
  | _, _ => s

/-- The ACTIVE record with a burst counted (R90): words done, and the tally of a COMPARE. -/
def State.counted (s : State) (a : Active) (x : Burst) : Active :=
  { a with
    wordsDone := a.wordsDone + x.count
    tally :=
      match a.req.kind, a.req.slot with
      | .compare, some slot =>
        a.tally.compare x.first ((s.requestedWords a.req x).zip (s.staging.spanWords slot x))
      | _, _ => a.tally }

/-- The segment that follows the one a burst belongs to, when the record has one (R72, R91). -/
def Request.segmentAfter (r : Request) (g : Geometry) (x : Burst) : Option Segment :=
  if x.first < (r.firstSegment g).count then r.secondSegment g else none

/-- A burst completion is a segment end, unless the record is being aborted (R71, R91, R97). -/
def State.segmentEnd (s : State) (a : Active) (x : Burst) : State :=
  if x.endsSegment && !a.aborting then
    s.segmentDecision a.req.closeOption x.bank x.row
      (a.req.segmentAfter s.setup.workGeometry x)
  else s

/-- The ACTIVE record after a completion has been counted and its segment end decided: it becomes
DONE at its last one (R92, R97), or goes on. The bursts that a pending SOFT_RESET waits for count in no
completion: the record stays ACTIVE, its slots LENT, until the reset frees it (R41, R46, R101). -/
def State.finishIfLast (s : State) (a : Active) : State :=
  if s.sched.inFlight.any (fun x => decide (x.user = .record)) || s.bus.softPending then
    { s with pool.active := some a }
  else if a.aborting then s.finishActive a .aborted none
  else if a.hasBlock then { s with pool.active := some a }
  else s.finishActive a a.outcome.1 a.outcome.2

/-- The completion of a burst of the ACTIVE record (R90 to R92, R97). -/
def State.completeForRecord (s : State) (x : Burst) : State :=
  match s.pool.active with
  | some a =>
    ({ s.storeRequested a.req x with pool.active := some (s.counted a x) }.segmentEnd
      (s.counted a x) x).finishIfLast (s.counted a x)
  | none => s

/-- The oldest burst in flight completes at its point; completions are in issue order (R11). -/
def State.burstCompletionAt (s : State) (isWrite : Bool) : Option Nat :=
  match s.sched.inFlight with
  | x :: _ => if x.isWrite = isWrite then some (s.pointOf x.done) else none
  | [] => none

/-- READ_BURST_COMPLETION (R9, R52, R54). -/
def execReadBurstCompletion (s : State) : Host.Outcome State Fault Refusal :=
  s.takeAt (s.burstCompletionAt false) fun t s =>
    match s.sched.inFlight with
    | x :: rest => State.completeForRecord { s.atAC t with sched.inFlight := rest } x
    | [] => s

/-- The write-recovery end of a bank after a write completion at AC `t` (R58): pending while a later
WRITE_BURST to the bank is in flight. -/
def State.writeRecoveryAfter (s : State) (b : Fin 8) (t : Nat) : WriteRecovery :=
  if s.sched.inFlight.any (fun y => y.isWrite && decide (y.bank = b)) then .pending
  else .ends (t + s.setup.writeRecoveryTime)

/-- The effect of a write completion at AC `t` on the array and the bank (R10, R18, R58). -/
def State.writeLands (s : State) (x : Burst) (t : Nat) : State :=
  { s.setBank x.bank { s.bank x.bank with writeRecovery := s.writeRecoveryAfter x.bank t } with
    array.words := s.array.words.writeAll x.base x.data }

/-- What a write completion does for its user (R90, R128): the record's count, or the chunk-end
decision at a chunk's fourth. -/
def State.completeWrite (s : State) (x : Burst) : State :=
  match x.user with
  | .record => s.completeForRecord x
  | .chunk true => s.chunkDecision x.bank x.row
  | .chunk false => s

/-- WRITE_BURST_COMPLETION (R10). -/
def execWriteBurstCompletion (s : State) : Host.Outcome State Fault Refusal :=
  s.takeAt (s.burstCompletionAt true) fun t s =>
    match s.sched.inFlight with
    | x :: rest =>
      (State.writeLands { s.atAC t with sched.inFlight := rest } x t).completeWrite x
    | [] => s

end Sys2Proof.Machine
end

