-- ==== Sys2Proof/Machine/Grants.lean ====
section
/-! DEFINITION. The grants of the array command path (R78 to R82). A grant takes place when the
arbiter would grant that claim (R80), at the present AC; otherwise nothing happens. -/

namespace Sys2Proof.Machine

/-- A job takes the path (R78). -/
def State.grant (s : State) (j : Job) : State := { s with sched.job := some j }

/-- The state after a selection (R85, R86, R88): the chosen record is ACTIVE, the ages of the
passed-over ones have risen, and its first burst job holds the path. -/
def State.select (s : State) : State :=
  match s.chosen with
  | some q =>
    (State.grant { s with
      pool.queued := passOver q [] s.pool.queued
      pool.active := some q.activate } .recordBurst).endHeldBurst
  | none => s

/-- SELECTION (R84 to R86, R88). -/
def execSelection (s : State) : Host.Outcome State Fault Refusal :=
  s.take (if s.selectionGrant then s.select else s)

/-- RECORD_BURST_GRANT (R89, R94, R95): the record is no longer paused. -/
def execRecordBurstGrant (s : State) : Host.Outcome State Fault Refusal :=
  s.take <|
    if s.burstGrant then (State.grant { s with pool := s.pool.resume } .recordBurst).endHeldBurst
    else s

/-- SHUT_CLAIM_GRANT (R68, R80). -/
def execShutClaimGrant (s : State) : Host.Outcome State Fault Refusal :=
  s.take <| match s.shutGrant with
    | some b => s.grant (.shutClaim b)
    | none => s

/-- CAPTURE_CHUNK_GRANT (R80, R94, R125, R126): an urgent chunk pauses a record with blocks left, a
normal one does not. -/
def execCaptureChunkGrant (s : State) : Host.Outcome State Fault Refusal :=
  s.take <|
    if s.urgentChunkGrant then State.grant { s with pool := s.pool.pause } (.chunk 0)
    else if s.normalChunkGrant then s.grant (.chunk 0)
    else s

/-- URGENT_REFRESH_GRANT (R94, R107, R108). -/
def execUrgentRefreshGrant (s : State) : Host.Outcome State Fault Refusal :=
  s.take <|
    if s.arbiterOpen && s.urgentClaim then
      State.grant { s with pool := s.pool.pause } .urgentRefresh
    else s

/-- OPPORTUNISTIC_REFRESH_GRANT (R109). -/
def execOpportunisticRefreshGrant (s : State) : Host.Outcome State Fault Refusal :=
  s.take (if s.pullInGrant then s.grant .pullIn else s)

/-- DRAIN_GRANT (R82, R149, R154, R166, R172): the shut-all begins; with every bank CLOSED it is
over at once. -/
def execDrainGrant (s : State) : Host.Outcome State Fault Refusal :=
  s.take <| match s.drainGrant with
    | some d => (State.grant { s with ctrl.progress := .shutAll d } .procedure).proceed
    | none => s

/-- The restore may be granted (R101, R162): due, the reset has taken effect, the path is free. -/
def State.restoreGrant (s : State) : Bool :=
  s.ctrl.restoreDue && !s.bus.softPending && decide (s.sched.job = none)

/-- The SET_MODE that is restored had issued a MODE_LOAD (R162). It holds in SETTING alone: where a
second SOFT_RESET stops the restore of an ALIGN after that restore's own load of M1, the restore that
follows does not wait for the mode-settle window of that load. That is the model's choice (log 37). -/
def Ctrl.setModeLoaded (c : Ctrl) : Bool :=
  match c.arrayState, c.progress with
  | .setting, .stopped loaded => loaded
  | _, _ => false

/-- RESTORE_GRANT (R162): the array leaves align mode if it is in it, then every bank is shut. The
mode-settle window is waited for after a load of the SET_MODE or of this restore, and after no other
one's, that of a restore that a second SOFT_RESET has stopped included (log 37). -/
def execRestoreGrant (s : State) : Host.Outcome State Fault Refusal :=
  s.take <|
    if s.restoreGrant then
      (State.grant { s with
        ctrl.restoreDue := false
        ctrl.progress := if s.ctrl.inAlignMode then .restoreLoad
          else .restoreShut s.ctrl.setModeLoaded }
        .procedure).proceed
    else s

end Sys2Proof.Machine
end

