-- ==== Sys2Proof/Machine/HostBus.lean ====
section
/-! DEFINITION. The meanings of the host bus cycles that are no command codes: posts, releases, the
data port, the settings, the mode shadows, the Event Unit's registers. -/

namespace Sys2Proof.Machine

/-! ### Posts and releases -/

/-- A post is accepted (R25, R44): a record is QUEUED, its span is lent, the counter advances, the
submit status is ACCEPTED. Its becoming QUEUED is a wake cause (R167, R169). -/
def State.accept (s : State) (r : Request) : State :=
  State.wakeCause { s with
    pool.queued := s.pool.queued ++ [{ req := r, seq := s.pool.counter, age := 0 }]
    pool.counter := s.pool.counter + 1
    staging := s.staging.setOwner r (some r.tag)
    bus.submitStatus := .accepted }

/-- POST (R19, R23, R24, R25): the value written is ignored. -/
def execPost (_v : Word) (s : State) : Host.Outcome State Fault Refusal :=
  s.take <| match s.checkPost, s.bus.submission with
    | .accepted, some r => s.accept r
    | status, _ => { s with bus.submitStatus := status }

/-- RELEASE (R36, R37): the value written is ignored. -/
def execRelease (_v : Word) (s : State) : Host.Outcome State Fault Refusal :=
  s.take <| match s.pool.done with
    | [] => s.raiseFault .emptyRelease 0
    | _ :: rest => { s with pool.done := rest }

/-! ### Data port -/

/-- DATA_PORT_WRITE (R48, R50). -/
def execDataPortWrite (v : Word) (s : State) : Host.Outcome State Fault Refusal :=
  let a := s.bus.dpPtr
  let u := { s with bus.dpPtr := a + 1 }
  s.take <|
    if s.staging.lentAt a then u.raiseFault .portFault (a.setWidth 16)
    else { u with staging.words := s.staging.words.write a.toNat v }

/-- DATA_PORT_READ (R49, R50): the value is driven on D15..D0. -/
def execDataPortRead (s : State) : Host.Outcome State Fault Refusal :=
  let a := s.bus.dpPtr
  let u := { s with bus.dpPtr := a + 1 }
  s.take <|
    if s.staging.lentAt a then
      State.raiseFault { u with bus.dataOut := some 0 } .portFault (a.setWidth 16)
    else { u with bus.dataOut := some (s.staging.word a.toNat) }

/-- DATA_PORT_POINTER_WRITE (R47). -/
def execDataPortPointerWrite (v : Word) (s : State) : Host.Outcome State Fault Refusal :=
  s.take { s with bus.dpPtr := v.setWidth 11 }

/-! ### Settings (R188): a write of PARAM_DATA while PARAM_SEL selects the setting -/

/-- The number of the selected setting (R188). -/
def Bus.setting (u : Bus) : Nat := u.paramSel.toNat

/-- A setting write whose value is not stored (R15, R182): the detail is the setting's number. -/
def State.rangeFault (s : State) : State := s.raiseFault .timingRange (s.bus.paramSel.setWidth 16)

/-- TIMING_PARAMETER_WRITE (R15): settings 0..18. -/
def execTimingParameterWrite (v : Word) (s : State) : Host.Outcome State Fault Refusal :=
  s.take <|
    if h : s.bus.setting < 19 then
      if inParamRange ⟨s.bus.setting, h⟩ v.toNat then
        { s with setup.host := s.setup.host.set s.bus.setting v.toNat h }
      else s.rangeFault
    else s

/-- GEOMETRY_WRITE (R1): settings 20 (ROWS) and 21 (COLS). -/
def execGeometryWrite (v : Word) (s : State) : Host.Outcome State Fault Refusal :=
  s.take <|
    if s.bus.setting = 20 then
      if v.toNat = 4096 ∨ v.toNat = 8192 ∨ v.toNat = 16384 ∨ v.toNat = 32768 then
        { s with setup.hostGeometry.rows := v.toNat }
      else s.rangeFault
    else if s.bus.setting = 21 then
      if v.toNat = 512 ∨ v.toNat = 1024 then { s with setup.hostGeometry.cols := v.toNat }
      else s.rangeFault
    else s

/-- ARRAY_DIV_WRITE (R17): setting 19 replaces the pending divisor. -/
def execArrayDivWrite (v : Word) (s : State) : Host.Outcome State Fault Refusal :=
  s.take <|
    if s.bus.setting = 19 then
      if v.toNat = 1 ∨ v.toNat = 2 ∨ v.toNat = 4 then { s with setup.pendingDiv := v.toNat }
      else s.rangeFault
    else s

/-- The POLICY codes (R188). -/
def policyOfCode (code : Nat) : Option Policy :=
  match code with
  | 0 => some .openPage
  | 1 => some .closedPage
  | 2 => some .adaptive
  | _ => none

/-- POLICY_WRITE (R74): setting 22. -/
def execPolicyWrite (v : Word) (s : State) : Host.Outcome State Fault Refusal :=
  s.take <|
    if s.bus.setting = 22 then
      match policyOfCode v.toNat with
      | some p => { s with table.policy := p }
      | none => s.rangeFault
    else s

/-- AGE_LIMIT_WRITE (R86): setting 23. -/
def execAgeLimitWrite (v : Word) (s : State) : Host.Outcome State Fault Refusal :=
  s.take <|
    if s.bus.setting = 23 then
      if v.toNat ≤ 15 then { s with sched.ageLimit := v.toNat } else s.rangeFault
    else s

/-- REFRESH_SETTING_WRITE (R110): settings 24 (URGENT_LEVEL) and 25 (PULLIN_FLOOR, signed). The
claims follow the new settings at once, since they are conditions on the state. -/
def execRefreshSettingWrite (v : Word) (s : State) : Host.Outcome State Fault Refusal :=
  s.take <|
    if s.bus.setting = 24 then
      if 1 ≤ v.toNat ∧ v.toNat ≤ 8 then
        State.urgentCause { s with refresh.urgentLevel := v.toNat }
      else s.rangeFault
    else if s.bus.setting = 25 then
      if -8 ≤ v.toInt ∧ v.toInt ≤ 0 then { s with refresh.pullinFloor := v.toInt }
      else s.rangeFault
    else s

/-- The 28-bit value of a ring-base or mark write: WRITE_EXT over the data (R188). -/
def Bus.extended (u : Bus) (v : Word) : BitVec 28 := u.writeExt ++ v

/-- RING_DESCRIPTOR_WRITE (R121): settings 26 (base), 27 (size) and 28 (mark offset). -/
def execRingDescriptorWrite (v : Word) (s : State) : Host.Outcome State Fault Refusal :=
  let w := s.bus.extended v
  s.take <|
    if s.bus.setting = 26 then
      if s.capture.state = .idle then
        { s with capture.base := w, capture.producer := 0, capture.consumer := 0 }
      else s.rangeFault
    else if s.bus.setting = 27 then
      if s.capture.state = .idle then
        { s with capture.size := v, capture.producer := 0, capture.consumer := 0 }
      else s.rangeFault
    else if s.bus.setting = 28 then
      if s.capture.state = .idle ∨ (w.toNat % 32 = 0 ∧ w.toNat < s.capture.ringWords) then
        { s with capture.mark := w }
      else s.rangeFault
    else s

/-- AUTO_ALIGN_WRITE (R161): setting 29, codes 0 clear and 1 set. -/
def execAutoAlignWrite (v : Word) (s : State) : Host.Outcome State Fault Refusal :=
  s.take <|
    if s.bus.setting = 29 then
      if v.toNat ≤ 1 then { s with ctrl.autoAlign := decide (v.toNat = 1) } else s.rangeFault
    else s

/-- LANE_DELAY_WRITE (R160): settings 30 (lane 0) and 31 (lane 1). -/
def execLaneDelayWrite (v : Word) (s : State) : Host.Outcome State Fault Refusal :=
  s.take <|
    if 30 ≤ s.bus.setting then
      if s.ctrl.alignmentRuns then s.raiseFault .delayBusy (s.bus.paramSel.setWidth 16)
      else if v.toNat ≤ 63 then
        { s with ctrl.delays :=
            if s.bus.setting = 30 then s.ctrl.delays.set 0 (v.setWidth 6)
            else s.ctrl.delays.set 1 (v.setWidth 6) }
      else s.rangeFault
    else s

/-! ### Mode shadows, consumer offset, Event Unit, plain registers -/

/-- SHADOW_WRITE (R145): the align-mode field of M1 keeps its value. -/
def execShadowWrite (word : Fin 4) (v : Word) (s : State) : Host.Outcome State Fault Refusal :=
  let old := s.ctrl.shadows.get word
  let new := if word = 1 then (v &&& ~~~alignModeMask) ||| (old &&& alignModeMask) else v
  s.take { s with ctrl.shadows := s.ctrl.shadows.set word.val new word.isLt }

/-- The offset of a consumer write: WRITE_EXT bits 4..0 over the data (R188). -/
def Bus.consumerOffset (u : Bus) (v : Word) : Nat := (u.writeExt.setWidth 5 ++ v).toNat

/-- CONSUMER_WRITE (R129). A chunk demand that it raises is a wake cause (R169). -/
def execConsumerWrite (v : Word) (s : State) : Host.Outcome State Fault Refusal :=
  let w := s.bus.consumerOffset v
  s.take <|
    if s.capture.consumerPasses w then State.demandCause { s with capture.consumer := w }
    else s.raiseFault .consumerFault (BitVec.ofNat 16 (w / 32))

/-- EVENT_ACKNOWLEDGE (R179). -/
def execEventAcknowledge (v : Word) (s : State) : Host.Outcome State Fault Refusal :=
  s.take { s with events := s.events.acknowledge v }

/-- EVENT_ENABLE_WRITE (R180). -/
def execEventEnableWrite (v : Word) (s : State) : Host.Outcome State Fault Refusal :=
  s.take { s with events.enables := v.setWidth 8 }

/-- The effect of a write to a register with no behaviour of its own (R186): the bits the register
holds are stored; a read-only register ignores the write. -/
def Bus.plainWrite (u : Bus) (offset : BitVec 6) (v : Word) : Bus :=
  match offset.toNat with
  | 0x00 => { u with subAddrLo := v }
  | 0x01 => { u with subAddrHi := v.setWidth 12 }
  | 0x02 => { u with subLength := v.setWidth 10 }
  | 0x03 => { u with subCtrl := v.setWidth 15 }
  | 0x04 => { u with subSlot := v.setWidth 5 }
  | 0x05 => { u with subPattern := v }
  | 0x0F => { u with writeExt := v.setWidth 12 }
  | 0x10 => { u with paramSel := v.setWidth 5 }
  | _ => u

/-- PLAIN_REGISTER_WRITE (R19, R186, R188). -/
def execPlainRegisterWrite (offset : BitVec 6) (v : Word) (s : State) :
    Host.Outcome State Fault Refusal :=
  s.take { s with bus := s.bus.plainWrite offset v }

end Sys2Proof.Machine
end

