-- ==== Sys2Proof/Machine/Resets.lean ====
section
/-! DEFINITION. SOFT_RESET and its taking effect, the fall and the rise of RESET#. -/

namespace Sys2Proof.Machine

/-! ### SOFT_RESET -/

/-- What a SOFT_RESET command leaves of the Array Controller's work (R101, R162, R177): a wake and
an exit sequence run on, a claim, a doze entry and a retain entry stand until the taking effect,
everything else is stopped. `stopped` keeps whether words were being loaded, or a restore's shut-all
waited for a mode-settle window. In SETTING that is the window of the SET_MODE's load, and the next
restore waits for it again; in ALIGNING it is that of the restore's own load of M1, and the next restore
does not wait for it (`Ctrl.setModeLoaded`, log 37). -/
def Progress.halted (p : Progress) : Progress :=
  match p with
  | .idle => p
  | .draining _ => p
  | .shutAll .doze | .renewing .doze | .due .doze => p
  | .shutAll .retain | .renewing .retain | .due .retain => p
  | .waking _ => p
  | .exitTime _ _ => p
  | .exitLoad => p
  | .exitSettle => p
  | .stopped _ => p
  | .loading => .stopped true
  | .restoreShut settle => .stopped settle
  | _ => .stopped false

/-- What is left of the Array Controller's work in SETTING and ALIGNING when SOFT_RESET takes effect
(R162, R177): a wake runs on, and the restore finds how far a stopped SET_MODE had come. -/
def Progress.toRestore (p : Progress) : Progress :=
  match p with
  | .waking _ => p
  | .stopped _ => p
  | _ => .idle

/-- A wake or an exit sequence holds the path; SOFT_RESET does not end it (R101, R177). -/
def Progress.runsThroughReset (p : Progress) : Bool :=
  match p with
  | .waking _ => true
  | .exitTime _ _ => true
  | .exitLoad => true
  | .exitSettle => true
  | _ => false

/-- At the SOFT_RESET command the job that holds the path ends, and a probe in flight is not
sampled (R101, R162). -/
def State.halt (s : State) : State :=
  { s with
    sched.job :=
      if s.sched.job = some .procedure ∧ s.ctrl.progress.runsThroughReset then some .procedure
      else none
    ctrl.progress := s.ctrl.progress.halted
    ctrl.probe := none }

/-- The host side when SOFT_RESET takes effect: pool and queue (R41), slots (R46), capture engine
(R137), Event Unit (R185), pending bit (R191). -/
def State.emptyHostSide (s : State) : State :=
  { s with
    pool := { queued := [], active := none, done := [], counter := s.pool.counter }
    staging.owner := Vector.replicate 32 none
    capture.state := .idle
    capture.assembler := none
    capture.fifo := []
    capture.producer := 0
    capture.consumer := 0
    events := s.events.softReset
    bus.softPending := false }

/-- Every lane that was searching is FAILED (R162). -/
def Ctrl.giveUp (c : Ctrl) : Ctrl :=
  { c with lanes := #v[(c.lanes.get 0).giveUp, (c.lanes.get 1).giveUp] }

/-- A starting array returns to COLD (R162, R145, R18). The applied divisor stays (R17). -/
def State.returnToCold (s : State) : State :=
  { s.loseContents with
    ctrl := { s.ctrl.giveUp with
      arrayState := .cold
      indication := .none
      progress := .idle
      probe := none
      loadWords := []
      copies := #v[none, none, none, none]
      arrayReset := true
      clockEnable := false }
    sched.job := none }

/-- A retain entry pending is abandoned (R177). -/
def State.abandonRetain (s : State) : State :=
  { s with
    ctrl.indication := .none
    ctrl.progress := if s.waking then s.ctrl.progress else .idle }

/-- The array side when SOFT_RESET takes effect, by the array state (R77, R162, R177). R177 goes by the
state at the command: a doze entry or a retain entry that began between the command and the taking
effect is abandoned here like one that stood at the command, and its wake runs to its end (the model's
choice, log 35). -/
def State.softResetArray (s : State) : State :=
  match s.ctrl.arrayState with
  | .cold => s
  | .starting => s.returnToCold
  | .setting | .aligning =>
    { s with
      ctrl := { s.ctrl.giveUp with
        restoreDue := true
        probe := none
        progress := s.ctrl.progress.toRestore } }
  | .ready | .dozing =>
    if s.dozeEntry then s.abandonDoze
    else if s.ctrl.indication = .retainPending then s.abandonRetain
    else s
  | .retaining => { s with ctrl.exitHeld := false }

/-- SOFT_RESET takes effect (R191). -/
def State.softResetEffect (s : State) : State := s.emptyHostSide.softResetArray

/-- The SOFT_RESET command before the reset takes effect (R191). -/
def State.softResetCommand (s : State) : State :=
  { s.halt with
    bus.lastCode := 11
    bus.outcome := .accepted
    bus.softPending := true }

/-- SOFT_RESET (R191): with no burst and no RENEW in flight it takes effect at the command. -/
def execSoftReset (s : State) : Host.Outcome State Fault Refusal :=
  s.take (if s.inFlight then s.softResetCommand else s.softResetCommand.softResetEffect)

/-- A pending SOFT_RESET takes effect now (R191): nothing that was in flight at the command is left. -/
def State.resetDue (s : State) : Bool := s.bus.softPending && !s.inFlight

/-- SOFT_RESET_TAKES_EFFECT (R191). -/
def execSoftResetTakesEffect (s : State) : Host.Outcome State Fault Refusal :=
  s.take (if s.resetDue then s.softResetEffect else s)

/-! ### RESET# -/

/-- HARDWARE_RESET (R192): RESET# falls. Every block takes its hardware-reset value; the contents of
the buffer and of the array are unknown anew. The model's own counters and the waiting commands
stay (log 10). -/
def execHardwareReset (s : State) : Host.Outcome State Fault Refusal :=
  .next { State.reset with
    resetLow := true
    staging.epoch := s.staging.epoch + 1
    array.epoch := s.array.epoch + 1
    now := s.now
    draws := s.draws
    pending := s.pending }

/-- RESET_RELEASE (R192): RESET# rises, and the part begins in its reset state. -/
def execResetRelease (s : State) : Host.Outcome State Fault Refusal :=
  .next { s with resetLow := false }

end Sys2Proof.Machine
end

