-- ==== Sys2Proof/Machine/Timers.lean ====
section
/-! DEFINITION. Capture arrivals and the expiries of timers, windows and phases. Each expiry has a
function `…At` for the AC at which it is taken, `none` while there is nothing to expire. -/

namespace Sys2Proof.Machine

/-! ### Capture arrivals -/

/-- A word is offered to the FIFO (R119): it joins the tail, or is dropped at a level of 256. -/
def State.offer (s : State) (w : Word) : State :=
  if s.capture.fifo.length < 256 then
    State.demandCause { s with capture.fifo := s.capture.fifo ++ [w] }
  else State.raiseEvent { s with capture.drops := min 65535 (s.capture.drops + 1) } .overrun

/-- CAPTURE_BYTE_ARRIVAL (R118): the held byte is the low half of the word. -/
def execCaptureByteArrival (b : Byte) (s : State) : Host.Outcome State Fault Refusal :=
  s.take <|
    if s.capture.state = .running then
      match s.capture.assembler with
      | none => { s with capture.assembler := some b }
      | some low => State.offer { s with capture.assembler := none } (b ++ low)
    else s

/-! ### Refresh period, doze idle timer, wake -/

/-- The refresh-period timer expires at its point (R103). -/
def State.refreshPeriodAt (s : State) : Option Nat := s.refresh.timer.map s.pointOf

/-- The balance at an expiry (R104): it rises by 1 below +8; at +8 this is a violation. -/
def State.countPeriod (s : State) : State :=
  if s.refresh.balance < 8 then { s with refresh.balance := s.refresh.balance + 1 }
  else
    { s.loseContents with
      refresh.violations := min 255 (s.refresh.violations + 1)
      refresh.retentionLost := true
      events.flags :=
        if s.refresh.retentionLost then s.events.flags
        else s.events.flags ||| Event.retentionLost.mask }

/-- The refresh-period timer restarts with a full period at its own expiry point (R103), also when
the expiry is taken later (log 3). -/
def State.nextRefreshPeriod (s : State) : State :=
  { s with refresh.timer := s.refresh.timer.map (· + s.setup.refreshPeriod) }

/-- REFRESH_PERIOD_EXPIRY (R104). -/
def execRefreshPeriodExpiry (s : State) : Host.Outcome State Fault Refusal :=
  s.takeAt s.refreshPeriodAt fun t s => (s.atAC t).nextRefreshPeriod.countPeriod.urgentCause

/-- The doze idle timer expires at its point (R164). -/
def State.dozeIdleAt (s : State) : Option Nat := s.ctrl.dozeTimer.map s.pointOf

/-- The doze decision passes (R165). A doze entry already in progress is no ground for another
(log 14). -/
def State.dozeDecision (s : State) : Bool :=
  s.pool.queued.isEmpty && s.pool.active.isNone && !s.capture.demand && !s.aboveFloor &&
    decide (s.ctrl.indication = .none) && !s.drainClaim && !s.dozeEntry

/-- DOZE_IDLE_EXPIRY (R165, R166). -/
def execDozeIdleExpiry (s : State) : Host.Outcome State Fault Refusal :=
  s.takeAt s.dozeIdleAt fun t s =>
    let u := s.atAC t
    if s.dozeDecision then { u with ctrl.dozeTimer := none, ctrl.progress := .draining .doze }
    else { u with ctrl.dozeTimer := u.dozeStart t }

/-- NAP_EXIT_TIME of a wake expires at its point (R169). -/
def State.wakeEndAt (s : State) : Option Nat :=
  match s.ctrl.progress with
  | .waking point => some (s.pointOf point)
  | _ => none

/-- What follows a wake, by the array state (R169). After a SOFT_RESET the restore waits for it
(R177). -/
def State.afterWake (s : State) : State :=
  match s.ctrl.arrayState with
  | .setting => if s.ctrl.restoreDue then s else { s with ctrl.progress := .draining .setMode }
  | .aligning => if s.ctrl.restoreDue then s else { s with ctrl.progress := .draining .align }
  | .dozing =>
    { s with
      ctrl.arrayState := .ready
      ctrl.dozeTimer := s.dozeStart s.now
      ctrl.progress :=
        if s.ctrl.indication = .retainPending then .draining .retain else .idle }
  | _ => s

/-- WAKE_END (R169): the path is free, and the array goes on by its state. -/
def execWakeEnd (s : State) : Host.Outcome State Fault Refusal :=
  s.takeAt s.wakeEndAt fun t s =>
    State.afterWake { s.atAC t with ctrl.progress := .idle, sched.job := none }

/-! ### Windows of a bank -/

/-- The open delay of a bank expires at its point (R61). -/
def State.openDelayAt (s : State) (b : Fin 8) : Option Nat :=
  (s.bank b).openDelayEnd.map s.pointOf

/-- OPEN_DELAY_EXPIRY (R61). A record burst job that waited for it may end on the read hold
(R89). -/
def execOpenDelayExpiry (b : Fin 8) (s : State) : Host.Outcome State Fault Refusal :=
  s.takeAt (s.openDelayAt b) fun t s =>
    ((s.atAC t).setBank b { s.bank b with state := .opened, openDelayEnd := none }).endHeldBurst

/-- The close time of a bank expires at its point (R64). -/
def State.closeTimeAt (s : State) (b : Fin 8) : Option Nat :=
  (s.bank b).closeTimeEnd.map s.pointOf

/-- CLOSE_TIME_EXPIRY (R64): the all-closed condition may come to hold (R65). -/
def execCloseTimeExpiry (b : Fin 8) (s : State) : Host.Outcome State Fault Refusal :=
  s.takeAt (s.closeTimeAt b) fun t s =>
    ((s.atAC t).setBank b { s.bank b with state := .closed, closeTimeEnd := none }).proceed

/-- The point of one of the three windows that bar ROW_SHUT; a pending write recovery has none
(R58, R63). -/
def Bank.shutWindowPoint (e : Bank) (w : ShutWindow) : Option Nat :=
  match w with
  | .minimumOpen => e.minOpenEnd
  | .readToShut => e.readToShutEnd
  | .writeRecovery =>
    match e.writeRecovery with
    | .ends point => some point
    | _ => none

/-- The window has expired (R58). -/
def Bank.clearShutWindow (e : Bank) (w : ShutWindow) : Bank :=
  match w with
  | .minimumOpen => { e with minOpenEnd := none }
  | .readToShut => { e with readToShutEnd := none }
  | .writeRecovery => { e with writeRecovery := .expired }

/-- One of the three windows that bar ROW_SHUT expires at its point (R63). -/
def State.shutWindowAt (s : State) (b : Fin 8) (w : ShutWindow) : Option Nat :=
  ((s.bank b).shutWindowPoint w).map s.pointOf

/-- SHUT_WINDOW_EXPIRY (R63): a marked bank may come to hold a shut claim (R68). -/
def execShutWindowExpiry (b : Fin 8) (w : ShutWindow) (s : State) :
    Host.Outcome State Fault Refusal :=
  s.takeAt (s.shutWindowAt b w) fun t s =>
    (s.atAC t).setBank b ((s.bank b).clearShutWindow w)

/-! ### Global windows -/

/-- OPEN_SPACING expires at its point (R59). -/
def State.openSpacingAt (s : State) : Option Nat := s.table.openSpacing.map s.pointOf

/-- OPEN_SPACING_EXPIRY (R59, R60). -/
def execOpenSpacingExpiry (s : State) : Host.Outcome State Fault Refusal :=
  s.takeAt s.openSpacingAt fun t s => { s.atAC t with table.openSpacing := none }

/-- MODE_HOLD expires at its point (R59). -/
def State.modeHoldAt (s : State) : Option Nat := s.table.modeHold.map s.pointOf

/-- MODE_HOLD_EXPIRY (R59). -/
def execModeHoldExpiry (s : State) : Host.Outcome State Fault Refusal :=
  s.takeAt s.modeHoldAt fun t s => State.proceed { s.atAC t with table.modeHold := none }

/-- MODE_SETTLE expires at its point (R59). -/
def State.modeSettleAt (s : State) : Option Nat := s.table.modeSettle.map s.pointOf

/-- The last load of a start-up or a SET_MODE has settled (R142, R150). -/
def State.loadsSettled (s : State) : State :=
  if s.ctrl.arrayState = .starting then
    { s with ctrl.progress := .lockPhase (s.now + s.setup.lockTime) }
  else s.enterReady.raiseEvent .ready

/-- The alignment ends (R157): ALIGN_DONE, and READY or the end of the start-up. -/
def State.endAlignment (s : State) : State :=
  let u := s.raiseEvent .alignDone
  if s.ctrl.arrayState = .starting then u.endStartUp else u.enterReady

/-- What the work that waited for the mode-settle window does at its expiry (R142, R150, R157, R158,
R175). -/
def State.afterSettle (s : State) : State :=
  match s.ctrl.progress with
  | .loading => if s.ctrl.loadWords.isEmpty then s.loadsSettled else s
  | .suspendSettle =>
    { s with ctrl.progress := if 0 < s.refresh.balance then .suspendRenew else .suspendSet }
  | .suspendResume =>
    State.suspendForRefresh { s with
      ctrl.progress := .probing
      ctrl.interruptions := min 255 (s.ctrl.interruptions + 1) }
  | .endSettle => s.endAlignment
  | .exitSettle => s.endRetainExit
  | _ => s.proceed

/-- MODE_SETTLE_EXPIRY (R150). -/
def execModeSettleExpiry (s : State) : Host.Outcome State Fault Refusal :=
  s.takeAt s.modeSettleAt fun t s => State.afterSettle { s.atAC t with table.modeSettle := none }

/-- The renew window expires at its point (R12, R59). -/
def State.renewCompletionAt (s : State) : Option Nat := s.table.renewWindow.map s.pointOf

/-- RENEW_COMPLETION (R12). -/
def execRenewCompletion (s : State) : Host.Outcome State Fault Refusal :=
  s.takeAt s.renewCompletionAt fun t s => State.proceed { s.atAC t with table.renewWindow := none }

/-- The read hold ends at its point (R151). -/
def State.readHoldAt (s : State) : Option Nat := s.ctrl.readHold.map s.pointOf

/-- READ_HOLD_EXPIRY (R151): held burst claims stand again (R93). -/
def execReadHoldExpiry (s : State) : Host.Outcome State Fault Refusal :=
  s.takeAt s.readHoldAt fun t s => { s.atAC t with ctrl.readHold := none }

/-! ### Phases of STARTING -/

/-- RESET_HOLD ends at its point (R141). -/
def State.resetHoldAt (s : State) : Option Nat :=
  match s.ctrl.progress with
  | .resetHold point => some (s.pointOf point)
  | _ => none

/-- RESET_HOLD_EXPIRY (R141): the array reset is released and WAKE begins. -/
def execResetHoldExpiry (s : State) : Host.Outcome State Fault Refusal :=
  s.takeAt s.resetHoldAt fun t s =>
    { s.atAC t with
      ctrl.arrayReset := false
      ctrl.progress := .wakePhase (t + s.setup.wakeUnits * 1024) }

/-- WAKE ends at its point (R141). -/
def State.wakePhaseAt (s : State) : Option Nat :=
  match s.ctrl.progress with
  | .wakePhase point => some (s.pointOf point)
  | _ => none

/-- WAKE_PHASE_EXPIRY (R141): clock enable rises and SETTLE begins. -/
def execWakePhaseExpiry (s : State) : Host.Outcome State Fault Refusal :=
  s.takeAt s.wakePhaseAt fun t s =>
    { s.atAC t with
      ctrl.clockEnable := true
      ctrl.progress := .settlePhase (t + s.setup.startSettle) }

/-- SETTLE ends at its point (R141). -/
def State.settlePhaseAt (s : State) : Option Nat :=
  match s.ctrl.progress with
  | .settlePhase point => some (s.pointOf point)
  | _ => none

/-- SETTLE_PHASE_EXPIRY (R142): the working set is loaded, LOADS begins, and M1 is loaded at once;
M2, M3 and M0 are still to load. -/
def execSettlePhaseExpiry (s : State) : Host.Outcome State Fault Refusal :=
  s.takeAt s.settlePhaseAt fun t s =>
    State.loadMode { s.atAC t with
      setup := s.setup.loadWorking
      ctrl.progress := .loading
      ctrl.loadWords := [2, 3, 0] } 1 (s.ctrl.imageValue 1) t

/-- LOCK ends at its point (R142). -/
def State.lockPhaseAt (s : State) : Option Nat :=
  match s.ctrl.progress with
  | .lockPhase point => some (s.pointOf point)
  | _ => none

/-- LOCK_PHASE_EXPIRY (R143): an alignment begins under AUTO_ALIGN, or the start-up ends. -/
def execLockPhaseExpiry (s : State) : Host.Outcome State Fault Refusal :=
  s.takeAt s.lockPhaseAt fun t s =>
    let u := s.atAC t
    if s.ctrl.autoAlign then
      { u with ctrl := { s.ctrl.beginAlignment with progress := .due .align } }
    else u.endStartUp

/-! ### Retain -/

/-- RETAIN_MIN expires at its point (R174). -/
def State.retainMinAt (s : State) : Option Nat := s.ctrl.retainMin.map s.pointOf

/-- RETAIN_MIN_EXPIRY (R174): a held exit begins. -/
def execRetainMinExpiry (s : State) : Host.Outcome State Fault Refusal :=
  s.takeAt s.retainMinAt fun t s =>
    let u := { s.atAC t with ctrl.retainMin := none }
    if s.ctrl.exitHeld then u.beginExit else u

/-- RETAIN_EXIT_TIME expires at its point (R175). -/
def State.retainExitTimeAt (s : State) : Option Nat :=
  match s.ctrl.progress with
  | .exitTime point _ => some (s.pointOf point)
  | _ => none

/-- Step 3 of the exit sequence when the divisor changed (R175): the M0 load with lock restart is
issued at once, or waits for the mode-hold window. -/
def State.lockRestartStep (s : State) : State :=
  let u := { s with ctrl.progress := .exitLoad }
  match u.dueLoad with
  | some (word, v, next) => { u.loadMode word v s.now with ctrl.progress := next }
  | none => u

/-- RETAIN_EXIT_TIME_EXPIRY (R175). -/
def execRetainExitTimeExpiry (s : State) : Host.Outcome State Fault Refusal :=
  s.takeAt s.retainExitTimeAt fun t s =>
    match s.ctrl.progress with
    | .exitTime _ true => (s.atAC t).lockRestartStep
    | _ => (s.atAC t).endRetainExit

end Sys2Proof.Machine
end

