-- ==== Sys2Proof/Machine/Dispatch.lean ====
section
/-! DEFINITION. One arm per command: the meaning it has. -/

namespace Sys2Proof.Machine

/-- The effect of a command on everything but the queue. -/
def exec (i : Instr) (s : State) : Host.Outcome State Fault Refusal :=
  match i with
  | .post v => Sys2Proof.Machine.execPost v s
  | .release v => Sys2Proof.Machine.execRelease v s
  | .dataPortWrite v => Sys2Proof.Machine.execDataPortWrite v s
  | .dataPortRead => Sys2Proof.Machine.execDataPortRead s
  | .dataPortPointerWrite v => Sys2Proof.Machine.execDataPortPointerWrite v s
  | .timingParameterWrite v => Sys2Proof.Machine.execTimingParameterWrite v s
  | .geometryWrite v => Sys2Proof.Machine.execGeometryWrite v s
  | .arrayDivWrite v => Sys2Proof.Machine.execArrayDivWrite v s
  | .policyWrite v => Sys2Proof.Machine.execPolicyWrite v s
  | .ageLimitWrite v => Sys2Proof.Machine.execAgeLimitWrite v s
  | .refreshSettingWrite v => Sys2Proof.Machine.execRefreshSettingWrite v s
  | .ringDescriptorWrite v => Sys2Proof.Machine.execRingDescriptorWrite v s
  | .autoAlignWrite v => Sys2Proof.Machine.execAutoAlignWrite v s
  | .laneDelayWrite v => Sys2Proof.Machine.execLaneDelayWrite v s
  | .shadowWrite word v => Sys2Proof.Machine.execShadowWrite word v s
  | .consumerWrite v => Sys2Proof.Machine.execConsumerWrite v s
  | .eventAcknowledge v => Sys2Proof.Machine.execEventAcknowledge v s
  | .eventEnableWrite v => Sys2Proof.Machine.execEventEnableWrite v s
  | .plainRegisterWrite offset v => Sys2Proof.Machine.execPlainRegisterWrite offset v s
  | .startArray => Sys2Proof.Machine.execStartArray s
  | .setMode => Sys2Proof.Machine.execSetMode s
  | .align => Sys2Proof.Machine.execAlign s
  | .retainEnter => Sys2Proof.Machine.execRetainEnter s
  | .retainExit => Sys2Proof.Machine.execRetainExit s
  | .closeAll => Sys2Proof.Machine.execCloseAll s
  | .abort => Sys2Proof.Machine.execAbort s
  | .clearRetention => Sys2Proof.Machine.execClearRetention s
  | .captureStart => Sys2Proof.Machine.execCaptureStart s
  | .captureStop => Sys2Proof.Machine.execCaptureStop s
  | .softReset => Sys2Proof.Machine.execSoftReset s
  | .unknownCommandWrite v => Sys2Proof.Machine.execUnknownCommandWrite v s
  | .softResetTakesEffect => Sys2Proof.Machine.execSoftResetTakesEffect s
  | .hardwareReset => Sys2Proof.Machine.execHardwareReset s
  | .resetRelease => Sys2Proof.Machine.execResetRelease s
  | .captureByteArrival b => Sys2Proof.Machine.execCaptureByteArrival b s
  | .refreshPeriodExpiry => Sys2Proof.Machine.execRefreshPeriodExpiry s
  | .dozeIdleExpiry => Sys2Proof.Machine.execDozeIdleExpiry s
  | .wakeEnd => Sys2Proof.Machine.execWakeEnd s
  | .openDelayExpiry bank => Sys2Proof.Machine.execOpenDelayExpiry bank s
  | .closeTimeExpiry bank => Sys2Proof.Machine.execCloseTimeExpiry bank s
  | .shutWindowExpiry bank window => Sys2Proof.Machine.execShutWindowExpiry bank window s
  | .openSpacingExpiry => Sys2Proof.Machine.execOpenSpacingExpiry s
  | .modeHoldExpiry => Sys2Proof.Machine.execModeHoldExpiry s
  | .modeSettleExpiry => Sys2Proof.Machine.execModeSettleExpiry s
  | .renewCompletion => Sys2Proof.Machine.execRenewCompletion s
  | .readHoldExpiry => Sys2Proof.Machine.execReadHoldExpiry s
  | .resetHoldExpiry => Sys2Proof.Machine.execResetHoldExpiry s
  | .wakePhaseExpiry => Sys2Proof.Machine.execWakePhaseExpiry s
  | .settlePhaseExpiry => Sys2Proof.Machine.execSettlePhaseExpiry s
  | .lockPhaseExpiry => Sys2Proof.Machine.execLockPhaseExpiry s
  | .retainMinExpiry => Sys2Proof.Machine.execRetainMinExpiry s
  | .retainExitTimeExpiry => Sys2Proof.Machine.execRetainExitTimeExpiry s
  | .strobeProbeCompletion lane0 lane1 => Sys2Proof.Machine.execStrobeProbeCompletion lane0 lane1 s
  | .readBurstCompletion => Sys2Proof.Machine.execReadBurstCompletion s
  | .writeBurstCompletion => Sys2Proof.Machine.execWriteBurstCompletion s
  | .selection => Sys2Proof.Machine.execSelection s
  | .recordBurstGrant => Sys2Proof.Machine.execRecordBurstGrant s
  | .shutClaimGrant => Sys2Proof.Machine.execShutClaimGrant s
  | .captureChunkGrant => Sys2Proof.Machine.execCaptureChunkGrant s
  | .urgentRefreshGrant => Sys2Proof.Machine.execUrgentRefreshGrant s
  | .opportunisticRefreshGrant => Sys2Proof.Machine.execOpportunisticRefreshGrant s
  | .drainGrant => Sys2Proof.Machine.execDrainGrant s
  | .restoreGrant => Sys2Proof.Machine.execRestoreGrant s
  | .rowOpen => Sys2Proof.Machine.execRowOpen s
  | .rowShut => Sys2Proof.Machine.execRowShut s
  | .readBurst => Sys2Proof.Machine.execReadBurst s
  | .writeBurst => Sys2Proof.Machine.execWriteBurst s
  | .renew => Sys2Proof.Machine.execRenew s
  | .modeLoad => Sys2Proof.Machine.execModeLoad s
  | .strobeProbe => Sys2Proof.Machine.execStrobeProbe s
  | .napIn => Sys2Proof.Machine.execNapIn s
  | .retainIn => Sys2Proof.Machine.execRetainIn s

end Sys2Proof.Machine
end

