-- ==== Sys2Proof/Machine/Idle.lean ====
section
/-! DEFINITION. What the part does by itself when no command waits (log 1): it takes one of its own
events that fall due at the present AC, and when none does, one AC of the array clock passes. -/

namespace Sys2Proof.Machine

/-- A command that is taken at the present AC when a condition holds. -/
def dueIf (c : Instr) (now : Bool) : List Instr := if now then [c] else []

/-- The command is taken at the present AC. -/
def State.atNow (s : State) (point : Option Nat) : Bool := decide (point = some s.now)

/-- The events that come before any other: a SOFT_RESET takes effect at the completion that it waits
for (R191), and the windows whose lapse shows by the time alone, so that their order decides
nothing. -/
def State.firstDue (s : State) : List Instr :=
  dueIf .softResetTakesEffect s.resetDue ++
    bankNumbers.flatMap (fun b =>
      dueIf (.shutWindowExpiry b .minimumOpen) (s.atNow (s.shutWindowAt b .minimumOpen)) ++
      dueIf (.shutWindowExpiry b .writeRecovery) (s.atNow (s.shutWindowAt b .writeRecovery)) ++
      dueIf (.shutWindowExpiry b .readToShut) (s.atNow (s.shutWindowAt b .readToShut))) ++
    dueIf .openSpacingExpiry (s.atNow s.openSpacingAt) ++
    dueIf .readHoldExpiry (s.atNow s.readHoldAt)

/-- The expiries due now. -/
def State.expiriesDue (s : State) : List Instr :=
  dueIf .refreshPeriodExpiry (s.atNow s.refreshPeriodAt) ++
    dueIf .dozeIdleExpiry (s.atNow s.dozeIdleAt) ++
    dueIf .wakeEnd (s.atNow s.wakeEndAt) ++
    bankNumbers.flatMap (fun b =>
      dueIf (.openDelayExpiry b) (s.atNow (s.openDelayAt b)) ++
      dueIf (.closeTimeExpiry b) (s.atNow (s.closeTimeAt b))) ++
    dueIf .modeHoldExpiry (s.atNow s.modeHoldAt) ++
    dueIf .modeSettleExpiry (s.atNow s.modeSettleAt) ++
    dueIf .renewCompletion (s.atNow s.renewCompletionAt) ++
    dueIf .resetHoldExpiry (s.atNow s.resetHoldAt) ++
    dueIf .wakePhaseExpiry (s.atNow s.wakePhaseAt) ++
    dueIf .settlePhaseExpiry (s.atNow s.settlePhaseAt) ++
    dueIf .lockPhaseExpiry (s.atNow s.lockPhaseAt) ++
    dueIf .retainMinExpiry (s.atNow s.retainMinAt) ++
    dueIf .retainExitTimeExpiry (s.atNow s.retainExitTimeAt)

/-- The completions due now. A probe that completes by itself samples free values (log 7). -/
def State.completionsDue (s : State) : List Instr :=
  dueIf (.strobeProbeCompletion (Config.feedback s.draws 0) (Config.feedback s.draws 1))
      (s.atNow s.probeCompletionAt) ++
    dueIf .readBurstCompletion (s.atNow (s.burstCompletionAt false)) ++
    dueIf .writeBurstCompletion (s.atNow (s.burstCompletionAt true))

/-- The grant that the arbiter makes now; at most one stands (R80). -/
def State.grantsDue (s : State) : List Instr :=
  dueIf .urgentRefreshGrant (s.arbiterOpen && s.urgentClaim) ++
    dueIf .captureChunkGrant (s.urgentChunkGrant || s.normalChunkGrant) ++
    dueIf .drainGrant s.drainGrant.isSome ++
    dueIf .shutClaimGrant s.shutGrant.isSome ++
    dueIf .recordBurstGrant s.burstGrant ++
    dueIf .selection s.selectionGrant ++
    dueIf .opportunisticRefreshGrant s.pullInGrant ++
    dueIf .restoreGrant s.restoreGrant

/-- The operations that the job on the path issues now. -/
def State.operationsDue (s : State) : List Instr :=
  dueIf .rowOpen (s.atNow s.rowOpenAt) ++
    dueIf .rowShut (s.atNow s.rowShutAt) ++
    dueIf .readBurst (s.atNow s.readBurstAt) ++
    dueIf .writeBurst (s.atNow s.writeBurstAt) ++
    dueIf .renew (s.atNow s.renewAt) ++
    dueIf .modeLoad (s.atNow s.modeLoadAt) ++
    dueIf .strobeProbe (s.atNow s.strobeProbeAt) ++
    dueIf .napIn (s.atNow s.napInAt) ++
    dueIf .retainIn (s.atNow s.retainInAt)

/-- The part's own events due now, apart from the first ones. -/
def State.ownDue (s : State) : List Instr :=
  s.expiriesDue ++ s.completionsDue ++ s.grantsDue ++ s.operationsDue

/-- One AC of the array clock passes; while no divisor is applied the clock stands (R17). -/
def State.tick (s : State) : State :=
  if s.setup.appliedDiv.isSome then { s with now := s.now + 1 } else s

/-- One of several events that fall together: no rule orders them, so which comes first is a free
value (log 4). -/
def State.pick (s : State) (due : List Instr) : Option Instr :=
  due[Config.choice s.draws % due.length]?

/-- The event that the part takes by itself now, if any. -/
def State.ownEvent (s : State) : Option Instr :=
  match s.firstDue, s.ownDue with
  | c :: _, _ => some c
  | [], [] => none
  | [], [c] => some c
  | [], due => s.pick due

/-- What the part does when no command waits. While RESET# is low it does nothing (R192). -/
def idle (s : State) : Host.Outcome State Fault Refusal :=
  if s.resetLow then .next s
  else match s.ownEvent with
    | some c => exec c { s with draws := s.draws + 1 }
    | none => .next s.tick

end Sys2Proof.Machine
end

