-- ==== Sys2Proof/Machine/Window.lean ====
section
/-! DEFINITION. The register window (chapter 11): what a read of each register shows, and which
command a write of each register is. Reads have no effect (R186) but for the data port's, which is
the command DATA_PORT_READ; so reads are functions of the state and no commands (log 30). -/

namespace Sys2Proof.Machine

/-! ### Codes of the views (R187, R189, R190) -/

def SubmitStatus.code : SubmitStatus → Nat
  | .none => 0
  | .accepted => 1
  | .poolFull => 2
  | .notReady => 3
  | .badKind => 4
  | .tagBusy => 5
  | .lengthFault => 6
  | .alignFault => 7
  | .rangeFault => 8
  | .slotFault => 9
  | .slotBusy => 10

def CommandOutcome.code : CommandOutcome → Nat
  | .none => 0
  | .accepted => 1
  | .state => 2
  | .modeFault => 3
  | .ringFault => 4

def Result.code : Result → Nat
  | .done => 1
  | .mismatch => 2
  | .aborted => 3

def BankState.code : BankState → Nat
  | .closed => 0
  | .opening => 1
  | .opened => 2
  | .shutting => 3

def ArrayState.code : ArrayState → Nat
  | .cold => 0
  | .starting => 1
  | .ready => 2
  | .setting => 3
  | .aligning => 4
  | .dozing => 5
  | .retaining => 6

def Indication.code : Indication → Nat
  | .none => 0
  | .starting => 1
  | .setting => 2
  | .aligning => 3
  | .retainPending => 4

def CaptureState.code : CaptureState → Nat
  | .idle => 0
  | .running => 1
  | .draining => 2

def LaneOutcome.code : LaneOutcome → Nat
  | .none => 0
  | .locked => 1
  | .failed => 2

def FaultKind.code : FaultKind → Nat
  | .portFault => 1
  | .emptyRelease => 2
  | .consumerFault => 3
  | .timingRange => 4
  | .delayBusy => 5
  | .commandFault => 6

def Policy.code : Policy → Nat
  | .openPage => 0
  | .closedPage => 1
  | .adaptive => 2

/-! ### Register values -/

/-- A register value from its fields, each placed by its lowest bit. -/
def pack (fields : List (Nat × Nat)) : Word :=
  BitVec.ofNat 16 (fields.foldl (fun sum f => sum + f.1 * 2 ^ f.2) 0)

/-- The number of a one-bit field. -/
def bitOf (b : Bool) : Nat := if b then 1 else 0

/-- The low half of a value that two registers hold. -/
def lowHalf (v : Nat) : Word := BitVec.ofNat 16 (v % 65536)

/-- The high half of a value that two registers hold. -/
def highHalf (v : Nat) : Word := BitVec.ofNat 16 (v / 65536)

/-- CPL_INFO (R189), of the head of the completion queue; 0000h for an empty queue (R35). -/
def Pool.headInfo (p : Pool) : Word :=
  match p.done with
  | [] => 0
  | c :: _ =>
    pack [(c.tag.toNat, 0), (c.kind.code, 8), (c.result.code, 12), (bitOf c.suspect.isSome, 14),
      (bitOf (c.suspect == some true), 15)]

/-- The mismatch fields of the head (R34, R35): offset and count. -/
def Pool.headMismatch (p : Pool) : Nat × Nat := (p.done.head?.bind (fun c => c.mismatch)).getD (0, 0)

/-- One half of the ownership view: sixteen slots from `start`, one bit each (R187). That the lowest
slot stands in bit 0 and the others follow it upwards is the model's choice (log 36): the map gives the
slots in their order and no slot its bit. -/
def Staging.ownership (b : Staging) (start : Nat) : Word :=
  pack ((List.range 16).map fun i => (bitOf ((b.owner[start + i]?).getD none).isSome, i))

/-- The bank view (R57, R187). -/
def Table.view (u : Table) : Word :=
  pack (bankNumbers.map fun b => ((u.banks.get b).state.code, 2 * b.val))

/-- The scheduler view (R100). -/
def Pool.schedView (p : Pool) : Word :=
  pack [(bitOf p.active.isSome, 0), (bitOf (p.active.any fun a => a.paused), 1),
    (bitOf (p.active.any fun a => a.aborting), 2), (p.queued.length, 4)]

/-- The refresh view (R102); the signed fields in two's complement of their width (R187). -/
def Refresh.view (r : Refresh) : Word :=
  pack [((BitVec.ofInt 5 r.balance).toNat, 0), (bitOf r.retentionLost, 5), (r.urgentLevel, 8),
    ((BitVec.ofInt 4 r.pullinFloor).toNat, 12)]

/-- The array view (R139, R151, R187). That the unknown indications of M0, M1, M2 and M3 stand in bits
8, 9, 10 and 11 is the model's choice (log 36): the map gives "M0..M3 bits 11..8" and no word its bit. -/
def State.arrayView (s : State) : Word :=
  pack [(s.ctrl.arrayState.code, 0), (bitOf s.holdInForce, 3), (s.setup.appliedDiv.getD 0, 4),
    (bitOf (s.ctrl.copies.get 0).isNone, 8), (bitOf (s.ctrl.copies.get 1).isNone, 9),
    (bitOf (s.ctrl.copies.get 2).isNone, 10), (bitOf (s.ctrl.copies.get 3).isNone, 11)]

/-- The command status (R190). -/
def State.commandStatus (s : State) : Word :=
  pack [(s.bus.lastCode.toNat, 0), (s.bus.outcome.code, 4), (s.ctrl.indication.code, 8),
    (s.ctrl.arrayState.code, 12), (bitOf s.bus.softPending, 15)]

/-- A trace register: sixteen samples from tap `start`; bits at and beyond the length read 0 (R187). -/
def Lane.traceWord (x : Lane) (start : Nat) : Word :=
  pack ((List.range 16).map fun i => (bitOf ((x.trace[start + i]?).getD false), i))

/-- The value of setting `n` as PARAM_DATA shows it: the low 16 bits of its host copy (R188). -/
def State.settingValue (s : State) (n : BitVec 5) : Word :=
  if h : n.toNat < 19 then BitVec.ofNat 16 (s.setup.host.get ⟨n.toNat, h⟩)
  else match n.toNat with
    | 19 => BitVec.ofNat 16 s.setup.pendingDiv
    | 20 => BitVec.ofNat 16 s.setup.hostGeometry.rows
    | 21 => BitVec.ofNat 16 s.setup.hostGeometry.cols
    | 22 => BitVec.ofNat 16 s.table.policy.code
    | 23 => BitVec.ofNat 16 s.sched.ageLimit
    | 24 => BitVec.ofNat 16 s.refresh.urgentLevel
    | 25 => BitVec.ofInt 16 s.refresh.pullinFloor
    | 26 => s.capture.base.setWidth 16
    | 27 => s.capture.size
    | 28 => s.capture.mark.setWidth 16
    | 29 => BitVec.ofNat 16 (bitOf s.ctrl.autoAlign)
    | 30 => (s.ctrl.delays.get 0).setWidth 16
    | _ => (s.ctrl.delays.get 1).setWidth 16

/-- The word that a data-port read at the pointer returns: 0000h in a LENT slot (R49, R50). -/
def State.dataPortWord (s : State) : Word :=
  if s.staging.lentAt s.bus.dpPtr then 0 else s.staging.word s.bus.dpPtr.toNat

/-- What a read of the register at an offset shows (R187). -/
def State.registerValue (s : State) (offset : BitVec 6) : Word :=
  let c := s.capture
  let lane (i : Fin 2) := s.ctrl.lanes.get i
  match offset.toNat with
  | 0x00 => s.bus.subAddrLo
  | 0x01 => s.bus.subAddrHi.setWidth 16
  | 0x02 => s.bus.subLength.setWidth 16
  | 0x03 => s.bus.subCtrl.setWidth 16
  | 0x04 => s.bus.subSlot.setWidth 16
  | 0x05 => s.bus.subPattern
  | 0x06 => BitVec.ofNat 16 s.bus.submitStatus.code
  | 0x07 => pack [(s.pool.done.length, 0), (s.pool.free, 8)]
  | 0x08 => s.pool.headInfo
  | 0x09 => BitVec.ofNat 16 ((s.pool.done.head?.map (fun c : Completion => c.wordsDone)).getD 0)
  | 0x0A => BitVec.ofNat 16 s.pool.headMismatch.1
  | 0x0B => BitVec.ofNat 16 s.pool.headMismatch.2
  | 0x0C => s.bus.dpPtr.setWidth 16
  | 0x0D => s.dataPortWord
  | 0x0E => s.commandStatus
  | 0x0F => s.bus.writeExt.setWidth 16
  | 0x10 => s.bus.paramSel.setWidth 16
  | 0x11 => s.settingValue s.bus.paramSel
  | 0x12 => s.events.flags.setWidth 16
  | 0x13 => s.events.enables.setWidth 16
  | 0x14 =>
    match s.events.record with
    | none => 0
    | some r => pack [(r.kind.code, 0), (r.further, 8)]
  | 0x15 => (s.events.record.map (fun r => r.detail)).getD 0
  | 0x16 => s.staging.ownership 0
  | 0x17 => s.staging.ownership 16
  | 0x18 => s.table.view
  | 0x19 => s.pool.schedView
  | 0x1A => ((s.pool.active.map (fun a : Active => a.req.tag)).getD 0).setWidth 16
  | 0x1B => s.refresh.view
  | 0x1C => BitVec.ofNat 16 s.refresh.violations
  | 0x1D => s.arrayView
  | 0x1E => pack [(c.state.code, 0), (bitOf c.assembler.isSome, 2), (c.fifo.length, 4)]
  | 0x1F => lowHalf c.producer
  | 0x20 => highHalf c.producer
  | 0x21 => lowHalf c.consumer
  | 0x22 => highHalf c.consumer
  | 0x23 => lowHalf c.fill
  | 0x24 => highHalf c.fill
  | 0x25 => BitVec.ofNat 16 c.drops
  | 0x26 => BitVec.ofNat 16 c.pad
  | 0x27 => lowHalf c.base.toNat
  | 0x28 => highHalf c.base.toNat
  | 0x29 => c.size
  | 0x2A => lowHalf c.mark.toNat
  | 0x2B => highHalf c.mark.toNat
  | 0x2C => s.ctrl.shadows.get 0
  | 0x2D => s.ctrl.shadows.get 1
  | 0x2E => s.ctrl.shadows.get 2
  | 0x2F => s.ctrl.shadows.get 3
  | 0x30 => (s.ctrl.copies.get 0).getD 0
  | 0x31 => (s.ctrl.copies.get 1).getD 0
  | 0x32 => (s.ctrl.copies.get 2).getD 0
  | 0x33 => (s.ctrl.copies.get 3).getD 0
  | 0x34 =>
    pack [((lane 0).outcome.code, 0), ((lane 1).outcome.code, 2), (s.ctrl.interruptions, 8)]
  | 0x35 => pack [((lane 0).lockTap.getD 0, 0), ((lane 1).lockTap.getD 0, 8)]
  | 0x36 => pack [((lane 0).trace.length, 0), ((lane 1).trace.length, 8)]
  | 0x37 => (lane 0).traceWord 0
  | 0x38 => (lane 0).traceWord 16
  | 0x39 => (lane 0).traceWord 32
  | 0x3A => (lane 0).traceWord 48
  | 0x3B => (lane 1).traceWord 0
  | 0x3C => (lane 1).traceWord 16
  | 0x3D => (lane 1).traceWord 32
  | 0x3E => (lane 1).traceWord 48
  | _ => 0x2416

/-- A read of a register; while RESET# is low no cycle is taken and nothing is driven (R192). -/
def State.readRegister (s : State) (offset : BitVec 6) : Option Word :=
  if s.resetLow then none else some (s.registerValue offset)

/-! ### Which command a write is -/

/-- The command of a write to the command register (R190). -/
def commandOfCode (v : Word) : Instr :=
  match v.toNat with
  | 1 => .startArray
  | 2 => .setMode
  | 3 => .align
  | 4 => .retainEnter
  | 5 => .retainExit
  | 6 => .closeAll
  | 7 => .abort
  | 8 => .clearRetention
  | 9 => .captureStart
  | 10 => .captureStop
  | 11 => .softReset
  | _ => .unknownCommandWrite v

/-- The command of a write to PARAM_DATA, by the selected setting (R188). -/
def settingWrite (selected : BitVec 5) (v : Word) : Instr :=
  match selected.toNat with
  | 19 => .arrayDivWrite v
  | 20 | 21 => .geometryWrite v
  | 22 => .policyWrite v
  | 23 => .ageLimitWrite v
  | 24 | 25 => .refreshSettingWrite v
  | 26 | 27 | 28 => .ringDescriptorWrite v
  | 29 => .autoAlignWrite v
  | 30 | 31 => .laneDelayWrite v
  | _ => .timingParameterWrite v

/-- The command of a host write cycle: the register it names and, for PARAM_DATA, the setting that
PARAM_SEL selects (R186 to R190). -/
def Bus.writeCommand (u : Bus) (offset : BitVec 6) (v : Word) : Instr :=
  match offset.toNat with
  | 0x06 => .post v
  | 0x07 => .release v
  | 0x0C => .dataPortPointerWrite v
  | 0x0D => .dataPortWrite v
  | 0x0E => commandOfCode v
  | 0x11 => settingWrite u.paramSel v
  | 0x12 => .eventAcknowledge v
  | 0x13 => .eventEnableWrite v
  | 0x21 => .consumerWrite v
  | 0x2C => .shadowWrite 0 v
  | 0x2D => .shadowWrite 1 v
  | 0x2E => .shadowWrite 2 v
  | 0x2F => .shadowWrite 3 v
  | _ => .plainRegisterWrite offset v

end Sys2Proof.Machine
end

