-- ==== Sys2Proof/Safety.lean ====
section
/-! DEFINITION. What every step keeps: the invariants of the state, block by block. -/

namespace Sys2Proof.Machine

/-! ### Event Unit and Refresh Account -/

/-- FAULT is set exactly while the fault record is full, and the further-fault count is 0..255
(R181). -/
def State.faultReportAgrees (s : State) : Prop :=
  s.flag .fault = s.events.record.isSome ∧
    ∀ r, s.events.record = some r → r.further ≤ 255

/-- The balance is within −8..+8, its two settings and the violation count within their ranges
(R102). -/
def State.refreshInRange (s : State) : Prop :=
  -8 ≤ s.refresh.balance ∧ s.refresh.balance ≤ 8 ∧
  1 ≤ s.refresh.urgentLevel ∧ s.refresh.urgentLevel ≤ 8 ∧
  -8 ≤ s.refresh.pullinFloor ∧ s.refresh.pullinFloor ≤ 0 ∧
  s.refresh.violations ≤ 255

/-! ### Capture Engine -/

/-- A ring offset: a multiple of 32 below the ring words, or 0 (R123). -/
def Capture.isOffset (c : Capture) (x : Nat) : Prop := x % 32 = 0 ∧ (x < c.ringWords ∨ x = 0)

/-- The Capture Engine's state is one that chapter 7 allows: the FIFO holds at most 256 words and
none in IDLE (R119, R120), a byte is held in RUNNING only (R118), the level in DRAINING is a
positive multiple of 32 (R131, R132), the offsets lie in the ring (R123), the counts saturate. A
chunk on the path finds its 32 words, and a ring with a free chunk position beside its own (R125);
after a SOFT_RESET command none is on the path (R137). -/
def State.captureInBounds (s : State) : Prop :=
  s.capture.fifo.length ≤ 256 ∧
  (s.capture.state = .idle → s.capture.fifo = []) ∧
  (s.capture.state ≠ .running → s.capture.assembler = none) ∧
  (s.capture.state = .draining → s.capture.fifo ≠ [] ∧ s.capture.fifo.length % 32 = 0) ∧
  s.capture.isOffset s.capture.producer ∧ s.capture.isOffset s.capture.consumer ∧
  s.capture.drops ≤ 65535 ∧ s.capture.pad ≤ 31 ∧
  (s.capture.state ≠ .idle → 64 ≤ s.capture.ringWords) ∧
  (∀ j, s.sched.job = some (.chunk j) →
    j ≤ 3 ∧ s.capture.state ≠ .idle ∧ 32 ≤ s.capture.fifo.length ∧ s.capture.hasRoom = true ∧
      s.bus.softPending = false)

/-! ### Record Pool and Staging Buffer -/

/-- A request that the checks 5 to 8 of R23 let pass, with the fields of its kind (R20, R21). -/
def Request.formed (r : Request) (g : Geometry) : Prop :=
  r.lengthBad = false ∧ r.alignBad = false ∧ r.slotBad = false ∧
    r.address + r.length ≤ g.size ∧
    (r.slot.isSome ↔ r.kind ≠ .fill) ∧ (r.pattern.isSome ↔ r.kind = .fill)

/-- The tags of the live records: QUEUED, ACTIVE, DONE (R30). -/
def Pool.tags (p : Pool) : List Byte :=
  p.queued.map (fun q => q.req.tag) ++ (p.active.map (fun a => a.req.tag)).toList ++
    p.done.map (fun d => d.tag)

/-- Slot `i` lies in the span of a record (R21). -/
def Request.covers (r : Request) (i : Nat) : Prop :=
  ∃ slot, r.slot = some slot ∧ slot ≤ i ∧ i < slot + spanSlots r.length

/-- At most 16 records are live (R27), no two carry the same tag (R30), ages are 0..15 (R86), and a
slot is LENT to a record exactly when the record is QUEUED or ACTIVE and its span covers the slot
(R43). -/
def State.poolAndSlotsAgree (s : State) : Prop :=
  s.pool.live ≤ 16 ∧ s.pool.tags.Nodup ∧
  (∀ q, q ∈ s.pool.queued → q.age ≤ 15) ∧
  (∀ (i : Nat) (h : i < 32) (tag : Byte),
    s.staging.owner[i] = some tag ↔ ∃ r, r ∈ s.pool.unfinished ∧ r.tag = tag ∧ r.covers i)

/-! ### Bank Table -/

/-- An entry holds each of its fields exactly in the states that R57 names, and a mark only on an
OPENING or OPEN bank (R67). -/
def Bank.formed (e : Bank) : Prop :=
  (e.openRow.isSome ↔ e.state = .opening ∨ e.state = .opened) ∧
  (e.openDelayEnd.isSome ↔ e.state = .opening) ∧
  (e.closeTimeEnd.isSome ↔ e.state = .shutting) ∧
  (e.mark = true → e.state = .opening ∨ e.state = .opened)

/-- The array states in which every bank is CLOSED and no job but a procedure's holds the path:
COLD, STARTING, DOZING, RETAINING (R57, R83, R166, R173). -/
def ArrayState.resting (a : ArrayState) : Bool :=
  match a with
  | .cold => true
  | .starting => true
  | .dozing => true
  | .retaining => true
  | _ => false

/-- Every entry of the Bank Table is formed, and in a resting array every bank is CLOSED and the
path is free or a procedure's. -/
def State.banksAgree (s : State) : Prop :=
  (∀ b : Fin 8, (s.bank b).formed) ∧
  (s.ctrl.arrayState.resting = true →
    (∀ b : Fin 8, (s.bank b).state = .closed) ∧
      (s.sched.job = none ∨ s.sched.job = some .procedure))

/-! ### Settings and memories -/

/-- The geometry values of section 1.1. -/
def Geometry.allowed (g : Geometry) : Prop :=
  (g.rows = 4096 ∨ g.rows = 8192 ∨ g.rows = 16384 ∨ g.rows = 32768) ∧
    (g.cols = 512 ∨ g.cols = 1024)

/-- The divisor values (R17). -/
def divisorAllowed (d : Nat) : Prop := d = 1 ∨ d = 2 ∨ d = 4

/-- Every host copy and every working value lies in its parameter's range (R15, R16), both
geometries and both divisors are allowed (R1, R17), and AGE_LIMIT is 0..15 (R86). -/
def State.settingsInRange (s : State) : Prop :=
  (∀ n : Fin 19, inParamRange n (s.setup.host.get n) = true) ∧
  (∀ n : Fin 16, inParamRange (n.castLE (by decide)) (s.setup.working.get n) = true) ∧
  s.setup.hostGeometry.allowed ∧ s.setup.workGeometry.allowed ∧
  divisorAllowed s.setup.pendingDiv ∧
  (∀ d, s.setup.appliedDiv = some d → divisorAllowed d) ∧
  s.sched.ageLimit ≤ 15

/-- Both memories are in canonical form. -/
def State.memoriesCanonical (s : State) : Prop :=
  Memory.wf s.staging.words = true ∧ Memory.wf s.array.words = true

/-! ### Array Controller -/

/-- The array state to which a drain belongs (R82): doze and retain entries run in READY. -/
def Drain.home (d : Drain) : ArrayState :=
  match d with
  | .setMode => .setting
  | .align => .aligning
  | .retain => .ready
  | .doze => .ready

/-- The array states in which the Array Controller's work stands where it does (chapters 8, 9). -/
def Progress.allowedIn (p : Progress) (a : ArrayState) : Prop :=
  match p with
  | .idle => True
  | .resetHold _ | .wakePhase _ | .settlePhase _ | .lockPhase _ => a = .starting
  | .draining d | .shutAll d => a = d.home
  | .renewing d => a = d.home ∧ d ≠ .doze
  | .due d => a = d.home ∨ (d = .align ∧ a = .starting)
  | .renewed => a = .aligning
  | .loading => a = .starting ∨ a = .setting
  | .probing | .probeDue | .endClear | .endSettle => a = .starting ∨ a = .aligning
  | .suspendClear | .suspendSettle | .suspendRenew | .suspendSet | .suspendResume => a = .aligning
  | .waking _ => a = .dozing ∨ a = .setting ∨ a = .aligning
  | .exitTime _ _ | .exitLoad | .exitSettle => a = .retaining
  | .restoreLoad | .restoreShut _ => a = .setting ∨ a = .aligning
  | .stopped _ => a = .starting ∨ a = .setting ∨ a = .aligning

/-- The procedure indication shows STARTING, SETTING and ALIGNING exactly in those states, and a
retain entry pending only in READY or DOZING (R139, R171). -/
def Indication.agreesWith (i : Indication) (a : ArrayState) : Prop :=
  (i = .starting ↔ a = .starting) ∧ (i = .setting ↔ a = .setting) ∧
  (i = .aligning ↔ a = .aligning) ∧ (i = .retainPending → a = .ready ∨ a = .dozing)

/-- The states in which the refresh-period timer runs (R103). -/
def ArrayState.refreshRuns (a : ArrayState) : Bool :=
  match a with
  | .ready => true
  | .setting => true
  | .aligning => true
  | .dozing => true
  | _ => false

/-- The work at which the array copy of M1 may hold align mode set (R154, R157, R158, R162). -/
def Progress.inAlign (p : Progress) : Bool :=
  match p with
  | .probing => true
  | .probeDue => true
  | .suspendClear => true
  | .suspendResume => true
  | .endClear => true
  | .stopped _ => true
  | .idle => true
  | .restoreLoad => true
  | _ => false

/-- The work that holds the array command path as one job (R141, R149, R154, R166, R169, R172,
R175, R162). -/
def Progress.holdsPath (p : Progress) : Bool :=
  match p with
  | .idle => false
  | .draining _ => false
  | .stopped _ => false
  | _ => true

/-- The work of a retain entry in READY (R171, R172). -/
def Progress.ofRetain (p : Progress) : Bool :=
  match p with
  | .draining .retain => true
  | .shutAll .retain => true
  | .renewing .retain => true
  | .due .retain => true
  | _ => false

/-- The Array Controller's parts agree: its work with the array state, the indication with it
(R139), the refresh-period timer runs exactly in READY, SETTING, ALIGNING and DOZING (R103), the
doze idle timer runs in READY only (R164), an exit is held in RETAINING only (R174), a restore is
due in SETTING and ALIGNING only, with no other work but a wake or what the SOFT_RESET stopped (R162,
R177), a probe is in flight only while taps are probed (R155), a retain entry's work shows retain entry
pending (R171), work that holds the path holds it as one job unless a SOFT_RESET has ended that (R101),
and align mode is clear in the shadow and the image of M1 always and in its array copy outside an
alignment (R145, R148). -/
def State.controllerAgrees (s : State) : Prop :=
  s.ctrl.progress.allowedIn s.ctrl.arrayState ∧
  s.ctrl.indication.agreesWith s.ctrl.arrayState ∧
  s.refresh.timer.isSome = s.ctrl.arrayState.refreshRuns ∧
  (s.ctrl.dozeTimer.isSome = true → s.ctrl.arrayState = .ready) ∧
  (s.ctrl.exitHeld = true → s.ctrl.arrayState = .retaining ∧ s.ctrl.progress = .idle) ∧
  (s.ctrl.restoreDue = true →
    (s.ctrl.arrayState = .setting ∨ s.ctrl.arrayState = .aligning) ∧
      (s.ctrl.progress = .idle ∨ s.waking = true ∨ ∃ loaded, s.ctrl.progress = .stopped loaded)) ∧
  (s.ctrl.probe.isSome = true → s.ctrl.progress = .probing) ∧
  (s.ctrl.progress.ofRetain = true → s.ctrl.indication = .retainPending) ∧
  (s.ctrl.progress.holdsPath = true →
    s.sched.job = some .procedure ∨
      (s.bus.softPending = true ∧ s.ctrl.progress.runsThroughReset = false)) ∧
  alignMode (s.ctrl.shadows.get 1) = false ∧ alignMode (s.ctrl.loadImage.get 1) = false ∧
  (s.ctrl.inAlignMode = true →
    (s.ctrl.arrayState = .starting ∨ s.ctrl.arrayState = .aligning) ∧
      s.ctrl.progress.inAlign = true)

end Sys2Proof.Machine
end

