-- ==== Sys2Proof/Certificates/Slice0/Obligations.lean ====
section
/-! DEFINITION. The statements for the provers: what the commands of the W2416 do and what every step
keeps. A rule named R<n> is a rule of spec/; a log is a row of notes/assumptions/. -/

open Sys2Proof Sys2Proof.Machine

/-! ### Words the statements share -/

/-- The Event Unit goes from `u` to `v` at a fault of a kind and detail: an empty record is filled and
FAULT is set; a full one counts a further fault, at most 255 (R181). -/
def Sys2Proof.Machine.FaultTaken (kind : FaultKind) (detail : Word) (u v : Events) : Prop :=
  (u.record = none →
    v = { u with record := some ⟨kind, detail, 0⟩, flags := u.flags ||| 0x80#8 }) ∧
  (∀ r, u.record = some r →
    v = { u with record := some { r with further := min 255 (r.further + 1) } })

/-- The image of four mode words is valid (R147): the read latency is M0 bits 3..0, the write latency
M2 bits 3..0 (R187). -/
def Sys2Proof.Machine.ImageValid (m : Vector Word 4) : Prop :=
  5 ≤ (m.get 0).toNat % 16 ∧ (m.get 0).toNat % 16 ≤ 14 ∧
  5 ≤ (m.get 2).toNat % 16 ∧ (m.get 2).toNat % 16 ≤ 10 ∧
  (m.get 2).toNat % 16 ≤ (m.get 0).toNat % 16

/-- The doze idle timer after an operation issued at AC `n` (R164): in READY it restarts with a full
period of parameter 15, and it stays stopped if that is 0. -/
def Sys2Proof.Machine.DozeTimerAfter (s : State) (n : Nat) : Option Nat :=
  if s.ctrl.arrayState = .ready then
    (if s.setup.working.get 15 = 0 then none else some (n + s.setup.working.get 15))
  else s.ctrl.dozeTimer

/-- An event of a kind that R169 names begins no wake and abandons no doze entry: the array is not
DOZING, or a wake is in progress already, and no doze entry is in progress (R167). -/
def Sys2Proof.Machine.NoWake (s : State) : Prop :=
  (s.ctrl.arrayState = .dozing → s.waking = true) ∧ s.dozeEntry = false

/-- `u` with a wake just begun (R169): NAP_OUT is issued at once, at the first AC at which the command
lines are free (log 23), clock enable is high, and the wake holds the path until NAP_EXIT_TIME, in AC
`napExit`, has passed. -/
def Sys2Proof.Machine.WakeFrom (u : State) (napExit : Nat) : State :=
  { u with
    now := u.issuePoint
    port := some ⟨.napOut, u.issuePoint⟩
    ctrl.clockEnable := true
    ctrl.progress := .waking (u.issuePoint + napExit)
    sched.job := some .procedure }

/-- The doze idle timer when it starts at AC `n` (R164): a full period of parameter 15, stopped if that
is 0. -/
def Sys2Proof.Machine.DozePeriodFrom (s : State) (n : Nat) : Option Nat :=
  if s.setup.working.get 15 = 0 then none else some (n + s.setup.working.get 15)

/-- `u` with a doze entry just abandoned (R167): the drain claim is withdrawn or the entry's job ends,
and the doze idle timer runs a full period from the present AC. -/
def Sys2Proof.Machine.AbandonFrom (u : State) : State :=
  { u with
    ctrl.progress := .idle
    ctrl.dozeTimer := DozePeriodFrom u u.now
    sched.job := if u.sched.job = some .procedure then none else u.sched.job }

/-- `u`, what an event does in `s` apart from its being a wake cause, with what it causes: a wake in
DOZING (R169), and in a doze entry its end (R167). -/
def Sys2Proof.Machine.Roused (s u : State) : State :=
  if s.ctrl.arrayState = .dozing then WakeFrom u (s.setup.working.get 11) else AbandonFrom u

/-- What an accepted post of a request does apart from its being a wake cause (R25): the record is
QUEUED last with the counter's number and age 0, the counter advances, the slots have the owners
`owner`, and the submit status is ACCEPTED. -/
def Sys2Proof.Machine.PostQueued (s : State) (r : Request) (owner : Vector (Option Byte) 32) : State :=
  { s with
    pool.queued := s.pool.queued ++ [⟨r, s.pool.counter, 0⟩]
    pool.counter := s.pool.counter + 1
    staging.owner := owner
    bus.submitStatus := .accepted }

/-- The owners of the slots when the span of a request has been lent to it (R43, R44). -/
def Sys2Proof.Machine.SpanLent (s : State) (r : Request) (owner : Vector (Option Byte) 32) : Prop :=
  ∀ i : Fin 32, owner.get i =
    if ∃ slot, r.slot = some slot ∧ slot ≤ i.val ∧ i.val < slot + (r.length + 63) / 64 then
      some r.tag
    else s.staging.owner.get i

/-- `s` with the host side emptied by a SOFT_RESET that takes effect (R41, R46, R137, R185, R191): no
record is live and the counter stays, the slots have the owners `owner`, the capture run is over with
its FIFO, assembler and offsets cleared, no flag is set, the fault record is empty, and none is
pending. -/
def Sys2Proof.Machine.HostSideEmptied (s : State) (owner : Vector (Option Byte) 32) : State :=
  { s with
    bus.softPending := false
    pool := ⟨[], none, [], s.pool.counter⟩
    staging.owner := owner
    capture.state := .idle
    capture.assembler := none
    capture.fifo := []
    capture.producer := 0
    capture.consumer := 0
    events.flags := 0
    events.record := none }

/-- The lanes from `old` to `new` when an alignment is given up (R162): each lane that was searching is
FAILED, with no lock tap, and any other keeps all. -/
def Sys2Proof.Machine.LanesGivenUp (old new : Vector Lane 2) : Prop :=
  ∀ i : Fin 2, new.get i =
    if (old.get i).searching = true then
      { old.get i with outcome := .failed, lockTap := none, searching := false }
    else old.get i

/-- `c` back in COLD from STARTING (R145, R162), with the lanes `lanes`. -/
def Sys2Proof.Machine.BackToCold (c : Ctrl) (lanes : Vector Lane 2) : Ctrl :=
  { c with
    arrayState := .cold
    indication := .none
    progress := .idle
    probe := none
    lanes := lanes
    loadWords := []
    copies := #v[none, none, none, none]
    arrayReset := true
    clockEnable := false }

/-- `u` with the array just READY and the path free (R143, R150, R157, R162, R164, R175): the indication
is none, the job has ended, and the doze idle timer runs a full period of parameter 15 from the present
AC, or is stopped if that is 0. -/
def Sys2Proof.Machine.ReadyFrom (u : State) : State :=
  { u with
    ctrl.arrayState := .ready
    ctrl.indication := .none
    ctrl.progress := .idle
    ctrl.dozeTimer := DozePeriodFrom u u.now
    sched.job := none }

/-- Slot `i` lies in the span of a record: ceil(length / 64) slots from its slot field (R21). -/
def Sys2Proof.Machine.SpanCovers (r : Request) (i : Fin 32) : Prop :=
  ∃ slot, r.slot = some slot ∧ slot ≤ i.val ∧ i.val < slot + (r.length + 63) / 64

/-- From `s` to `t` the ACTIVE record has become DONE with a completion (R31): it leaves the Scheduler
and joins the queue's tail, its slots return to HOST and no other slot changes (R45), and COMPLETION is
set if it asked for it (R39). -/
def Sys2Proof.Machine.RecordFinished (s t : State) (r : Request) (c : Completion) : Prop :=
  t.pool = { s.pool with active := none, done := s.pool.done ++ [c] } ∧
  (∀ i : Fin 32, (SpanCovers r i → t.staging.owner.get i = none) ∧
    (¬ SpanCovers r i → t.staging.owner.get i = s.staging.owner.get i)) ∧
  t.events = { s.events with
    flags := if r.notify then s.events.flags ||| 0x01#8 else s.events.flags }

/-- A decision on a row, from the entry `e` that its bank has before it: the bank is marked if the row
is to be shut and the bank holds or is opening it (R67), and nothing else in the Bank Table changes. -/
def Sys2Proof.Machine.RowDecided (s t : State) (b : Fin 8) (row : Nat) (shut : Prop) (e : Bank) :
    Prop :=
  let marks := shut ∧ (e.state = .opening ∨ e.state = .opened) ∧ e.openRow = some row
  t.table = { s.table with banks := t.table.banks } ∧
  (∀ c : Fin 8, c ≠ b → t.bank c = s.bank c) ∧
  (marks → t.bank b = { e with mark := true }) ∧ (¬ marks → t.bank b = e)

/-- The first segment of a QUEUED record lies in a bank and row (R72). -/
def Sys2Proof.Machine.QueuedIn (s : State) (b : Fin 8) (row : Nat) : Prop :=
  ∃ q, q ∈ s.pool.queued ∧ bankOf s.setup.workGeometry q.req.address = b ∧
    rowOf s.setup.workGeometry q.req.address = row

/-- The completion of a burst of the ACTIVE record decides to shut its row (R71, R72): it is a segment
end, the record is not being aborted (R97), and its close option is SHUT, or it is POLICY and the row
policy is CLOSED_PAGE, or ADAPTIVE with neither a QUEUED record nor the record's next segment in the
row. -/
def Sys2Proof.Machine.SegmentShuts (s : State) (a : Active) (x : Burst) : Prop :=
  let g := s.setup.workGeometry
  let count := min a.req.length (g.cols - columnOf g a.req.address)
  x.endsSegment = true ∧ a.aborting = false ∧
  (a.req.closeOption = .shut ∨
    (a.req.closeOption = .policy ∧
      (s.table.policy = .closedPage ∨
        (s.table.policy = .adaptive ∧ ¬ QueuedIn s x.bank x.row ∧
          ¬ (x.first < count ∧ count < a.req.length ∧
            bankOf g (a.req.address + count) = x.bank ∧
            rowOf g (a.req.address + count) = x.row)))))

/-- The completion of a chunk's last burst decides to shut its row (R73): the row policy is
CLOSED_PAGE, or it is ADAPTIVE and none of these lies in the row: a QUEUED record's first segment, the
ACTIVE record's current or next segment, the next chunk position of a run. That position is taken from
the producer offset as it stands at the completion: the model's reading (log 31), where R73 names the
offset after that chunk's advance. -/
def Sys2Proof.Machine.ChunkShuts (s : State) (x : Burst) : Prop :=
  let g := s.setup.workGeometry
  let lies (address : Nat) : Prop := bankOf g address = x.bank ∧ rowOf g address = x.row
  s.table.policy = .closedPage ∨
    (s.table.policy = .adaptive ∧ ¬ QueuedIn s x.bank x.row ∧
      (∀ a, s.pool.active = some a →
        let count := min a.req.length (g.cols - columnOf g a.req.address)
        ¬ (a.segment = 0 ∧ lies a.req.address) ∧
        ¬ (a.segment ≤ 1 ∧ count < a.req.length ∧ lies (a.req.address + count))) ∧
      (s.capture.state ≠ .idle → ¬ lies (s.capture.base.toNat + s.capture.producer)))

/-! ### What the registers show -/

/-- A read of the register at an offset shows a number. -/
def Sys2Proof.Machine.Shows (s : State) (offset : BitVec 6) (n : Nat) : Prop :=
  s.readRegister offset = some (BitVec.ofNat 16 n)

/-- A read of the register at an offset shows these sixteen bits. -/
def Sys2Proof.Machine.ShowsBits (s : State) (offset : BitVec 6) (bit : Nat → Bool) : Prop :=
  ∃ w, s.readRegister offset = some w ∧ ∀ i, i < 16 → w.getLsbD i = bit i

/-- The submission registers, the submit status, the depth and free count, and the completion registers
of the head of the queue; with an empty queue these read 0000h (R35, R189). -/
def Sys2Proof.Machine.RecordViewsShow (s : State) : Prop :=
  Shows s 0x00 s.bus.subAddrLo.toNat ∧ Shows s 0x01 s.bus.subAddrHi.toNat ∧
  Shows s 0x02 s.bus.subLength.toNat ∧ Shows s 0x03 s.bus.subCtrl.toNat ∧
  Shows s 0x04 s.bus.subSlot.toNat ∧ Shows s 0x05 s.bus.subPattern.toNat ∧
  Shows s 0x06 ([SubmitStatus.none, .accepted, .poolFull, .notReady, .badKind, .tagBusy, .lengthFault,
    .alignFault, .rangeFault, .slotFault, .slotBusy].idxOf s.bus.submitStatus) ∧
  Shows s 0x07 (s.pool.done.length + s.pool.free * 256) ∧
  (s.pool.done = [] → Shows s 0x08 0 ∧ Shows s 0x09 0 ∧ Shows s 0x0A 0 ∧ Shows s 0x0B 0) ∧
  (∀ d rest, s.pool.done = d :: rest →
    Shows s 0x08 (d.tag.toNat + [Kind.read, .write, .fill, .compare].idxOf d.kind * 256 +
      ([Result.done, .mismatch, .aborted].idxOf d.result + 1) * 4096 +
      (if d.suspect = none then 0 else 16384) + (if d.suspect = some true then 32768 else 0)) ∧
    Shows s 0x09 d.wordsDone ∧
    (d.mismatch = none → Shows s 0x0A 0 ∧ Shows s 0x0B 0) ∧
    (∀ offset count, d.mismatch = some (offset, count) →
      Shows s 0x0A offset ∧ Shows s 0x0B count))

/-- The status views (R187, R190): pointer, command status, latches, flags and enables, fault record,
slot ownership, bank, scheduler, refresh and array view. Which bit is whose, of the slots and of the
unknown array copies, is the model's choice (log 36): the map gives their order only. -/
def Sys2Proof.Machine.StatusViewsShow (s : State) : Prop :=
  let bit (p : Prop) [Decidable p] : Nat := if p then 1 else 0
  let state := [ArrayState.cold, .starting, .ready, .setting, .aligning, .dozing, .retaining].idxOf
    s.ctrl.arrayState
  Shows s 0x0C s.bus.dpPtr.toNat ∧
  Shows s 0x0E (s.bus.lastCode.toNat +
    [CommandOutcome.none, .accepted, .state, .modeFault, .ringFault].idxOf s.bus.outcome * 16 +
    [Indication.none, .starting, .setting, .aligning, .retainPending].idxOf s.ctrl.indication * 256 +
    state * 4096 + bit (s.bus.softPending = true) * 32768) ∧
  Shows s 0x0F s.bus.writeExt.toNat ∧ Shows s 0x10 s.bus.paramSel.toNat ∧
  Shows s 0x12 s.events.flags.toNat ∧ Shows s 0x13 s.events.enables.toNat ∧
  (s.events.record = none → Shows s 0x14 0 ∧ Shows s 0x15 0) ∧
  (∀ r, s.events.record = some r →
    Shows s 0x14 ([FaultKind.portFault, .emptyRelease, .consumerFault, .timingRange, .delayBusy,
      .commandFault].idxOf r.kind + 1 + r.further * 256) ∧ Shows s 0x15 r.detail.toNat) ∧
  ShowsBits s 0x16 (fun i => ((s.staging.owner[i]?).getD none).isSome) ∧
  ShowsBits s 0x17 (fun i => ((s.staging.owner[16 + i]?).getD none).isSome) ∧
  (∃ w, s.readRegister 0x18 = some w ∧ ∀ b : Fin 8, w.toNat / 4 ^ b.val % 4 =
    [BankState.closed, .opening, .opened, .shutting].idxOf (s.bank b).state) ∧
  (s.pool.active = none → Shows s 0x19 (s.pool.queued.length * 16) ∧ Shows s 0x1A 0) ∧
  (∀ a, s.pool.active = some a →
    Shows s 0x19 (1 + bit (a.paused = true) * 2 + bit (a.aborting = true) * 4 +
      s.pool.queued.length * 16) ∧ Shows s 0x1A a.req.tag.toNat) ∧
  Shows s 0x1B ((s.refresh.balance % 32).toNat + bit (s.refresh.retentionLost = true) * 32 +
    s.refresh.urgentLevel * 256 + (s.refresh.pullinFloor % 16).toNat * 4096) ∧
  Shows s 0x1C s.refresh.violations ∧
  Shows s 0x1D (state + bit (∃ p, p ∈ s.ctrl.readHold.toList ∧ s.now < p) * 8 +
    s.setup.appliedDiv.getD 0 * 16 + bit (s.ctrl.copies.get 0 = none) * 256 +
    bit (s.ctrl.copies.get 1 = none) * 512 + bit (s.ctrl.copies.get 2 = none) * 1024 +
    bit (s.ctrl.copies.get 3 = none) * 2048)

/-- PARAM_DATA shows the selected setting: the low 16 bits of its host copy, for 19 the pending
divisor, for 30 and 31 the working delays (R188). -/
def Sys2Proof.Machine.SettingsReadBack (s : State) : Prop :=
  (∀ n : Fin 19, s.bus.paramSel.toNat = n.val → Shows s 0x11 (s.setup.host.get n)) ∧
  (s.bus.paramSel = 19 → Shows s 0x11 s.setup.pendingDiv) ∧
  (s.bus.paramSel = 20 → Shows s 0x11 s.setup.hostGeometry.rows) ∧
  (s.bus.paramSel = 21 → Shows s 0x11 s.setup.hostGeometry.cols) ∧
  (s.bus.paramSel = 22 →
    Shows s 0x11 ([Policy.openPage, .closedPage, .adaptive].idxOf s.table.policy)) ∧
  (s.bus.paramSel = 23 → Shows s 0x11 s.sched.ageLimit) ∧
  (s.bus.paramSel = 24 → Shows s 0x11 s.refresh.urgentLevel) ∧
  (s.bus.paramSel = 25 → Shows s 0x11 (s.refresh.pullinFloor % 65536).toNat) ∧
  (s.bus.paramSel = 26 → Shows s 0x11 (s.capture.base.toNat % 65536)) ∧
  (s.bus.paramSel = 27 → Shows s 0x11 s.capture.size.toNat) ∧
  (s.bus.paramSel = 28 → Shows s 0x11 (s.capture.mark.toNat % 65536)) ∧
  (s.bus.paramSel = 29 → Shows s 0x11 (if s.ctrl.autoAlign = true then 1 else 0)) ∧
  (∀ lane : Fin 2, s.bus.paramSel.toNat = 30 + lane.val →
    Shows s 0x11 (s.ctrl.delays.get lane).toNat)

/-- The capture view, the mode view and the alignment view; a value wider than a register stands in two,
the low half first, and an unknown array copy reads 0000h (R187). -/
def Sys2Proof.Machine.CaptureAndModeViewsShow (s : State) : Prop :=
  let c := s.capture
  let halves (low high : BitVec 6) (n : Nat) : Prop :=
    Shows s low (n % 65536) ∧ Shows s high (n / 65536)
  let outcome (lane : Fin 2) : Nat :=
    [LaneOutcome.none, .locked, .failed].idxOf (s.ctrl.lanes.get lane).outcome
  Shows s 0x1E ([CaptureState.idle, .running, .draining].idxOf c.state +
    (if c.assembler = none then 0 else 4) + c.fifo.length * 16) ∧
  halves 0x1F 0x20 c.producer ∧ halves 0x21 0x22 c.consumer ∧
  halves 0x23 0x24 ((c.producer + c.size.toNat * 32 - c.consumer) % (c.size.toNat * 32)) ∧
  Shows s 0x25 c.drops ∧ Shows s 0x26 c.pad ∧ halves 0x27 0x28 c.base.toNat ∧
  Shows s 0x29 c.size.toNat ∧ halves 0x2A 0x2B c.mark.toNat ∧
  (∀ i : Fin 4, Shows s (BitVec.ofNat 6 (0x2C + i.val)) (s.ctrl.shadows.get i).toNat ∧
    (s.ctrl.copies.get i = none → Shows s (BitVec.ofNat 6 (0x30 + i.val)) 0) ∧
    (∀ v, s.ctrl.copies.get i = some v → Shows s (BitVec.ofNat 6 (0x30 + i.val)) v.toNat)) ∧
  Shows s 0x34 (outcome 0 + outcome 1 * 4 + s.ctrl.interruptions * 256) ∧
  Shows s 0x35 ((s.ctrl.lanes.get 0).lockTap.getD 0 + (s.ctrl.lanes.get 1).lockTap.getD 0 * 256) ∧
  Shows s 0x36 ((s.ctrl.lanes.get 0).trace.length + (s.ctrl.lanes.get 1).trace.length * 256) ∧
  (∀ (lane : Fin 2) (k : Fin 4), ShowsBits s (BitVec.ofNat 6 (0x37 + 4 * lane.val + k.val))
    fun i => ((s.ctrl.lanes.get lane).trace[16 * k.val + i]?).getD false)

/-! ### Steps -/

/-- A step takes the command at the front of the queue: it is that command's effect on the state with
the rest of the queue. -/
def Obligations.StepTakesTheFrontCommand : Prop :=
  ∀ (s : State) (c : Instr) (rest : List Instr), s.pending = c :: rest →
    step s = exec c { s with pending := rest }

/-- On an empty queue (the model's choice, logs 1 and 4): while RESET# is low nothing happens; with
no event of the part's own due, one AC passes if the array clock runs; otherwise one of the events
due is taken, one of the first ones if there is any. -/
def Obligations.EmptyQueueTakesAnOwnEventOrPassesOneAC : Prop :=
  ∀ s : State, s.pending = [] →
    (s.resetLow = true → step s = .next s) ∧
    (s.resetLow = false → s.firstDue ++ s.ownDue = [] → ∀ d, s.setup.appliedDiv = some d →
      step s = .next { s with now := s.now + 1 }) ∧
    (s.resetLow = false → s.firstDue ++ s.ownDue = [] → s.setup.appliedDiv = none →
      step s = .next s) ∧
    (s.resetLow = false → s.firstDue ++ s.ownDue ≠ [] →
      ∃ c, c ∈ s.firstDue ++ s.ownDue ∧ (s.firstDue ≠ [] → c ∈ s.firstDue) ∧
        step s = exec c { s with draws := s.draws + 1 })

/-- No command stops the machine, none touches the queue, and the AC count never runs back. -/
def Obligations.EveryCommandAnswersAndLeavesTheQueue : Prop :=
  ∀ (c : Instr) (s : State), ∃ t, exec c s = .next t ∧ t.pending = s.pending ∧ s.now ≤ t.now

/-- While RESET# is low no command but the two of RESET# has any effect; RESET_RELEASE lets the part
begin in the state that the low level left (R192). -/
def Obligations.NothingIsTakenWhileResetIsLow : Prop :=
  (∀ (c : Instr) (s : State), s.resetLow = true → c ≠ .hardwareReset → c ≠ .resetRelease →
    exec c s = .next s) ∧
  (∀ s : State, exec .resetRelease s = .next { s with resetLow := false })

/-! ### Hardware reset -/

/-- HARDWARE_RESET gives every block the hardware-reset values of its chapter, from any state (R1,
R15 to R17, R40, R46, R57, R59, R74, R86, R101, R117, R121, R136, R138, R164, R177, R185, R192). The
last clause is the model's choice (log 10). -/
def Obligations.HardwareResetGivesEveryBlockItsResetValue : Prop :=
  ∀ s : State, ∃ t, exec .hardwareReset s = .next t ∧ t.resetLow = true ∧
    (t.bus.subAddrLo = 0 ∧ t.bus.subAddrHi = 0 ∧ t.bus.subLength = 0 ∧ t.bus.subCtrl = 0 ∧
      t.bus.subSlot = 0 ∧ t.bus.subPattern = 0 ∧ t.bus.submitStatus = .none ∧ t.bus.dpPtr = 0 ∧
      t.bus.paramSel = 0 ∧ t.bus.writeExt = 0 ∧ t.bus.lastCode = 0 ∧ t.bus.outcome = .none ∧
      t.bus.softPending = false ∧ t.bus.dataOut = none) ∧
    (t.pool.queued = [] ∧ t.pool.active = none ∧ t.pool.done = [] ∧ t.pool.counter = 0) ∧
    (∀ i : Fin 32, t.staging.owner.get i = none) ∧
    (t.events.flags = 0 ∧ t.events.enables = 0 ∧ t.events.record = none ∧
      t.intAsserted = false) ∧
    (t.sched.job = none ∧ t.sched.ageLimit = 4 ∧ t.sched.inFlight = [] ∧ t.port = none) ∧
    (∀ b : Fin 8, t.bank b = ⟨.closed, none, none, none, .expired, none, none, false⟩) ∧
    (t.table.openSpacing = none ∧ t.table.renewWindow = none ∧ t.table.modeHold = none ∧
      t.table.modeSettle = none ∧ t.table.policy = .adaptive) ∧
    (t.refresh.balance = 0 ∧ t.refresh.timer = none ∧ t.refresh.urgentLevel = 6 ∧
      t.refresh.pullinFloor = -2 ∧ t.refresh.retentionLost = false ∧ t.refresh.violations = 0) ∧
    (t.capture.state = .idle ∧ t.capture.assembler = none ∧ t.capture.fifo = [] ∧
      t.capture.base = 0 ∧ t.capture.size = 0 ∧ t.capture.mark = 0 ∧ t.capture.producer = 0 ∧
      t.capture.consumer = 0 ∧ t.capture.drops = 0 ∧ t.capture.pad = 0) ∧
    (t.setup.hostGeometry = ⟨8192, 1024⟩ ∧ t.setup.workGeometry = ⟨8192, 1024⟩ ∧
      t.setup.host.toList =
        [6, 15, 6, 6, 4, 4, 104, 4, 12, 512, 3120, 6, 8, 112, 16, 0, 128, 64, 256] ∧
      t.setup.working.toList = [6, 15, 6, 6, 4, 4, 104, 4, 12, 512, 3120, 6, 8, 112, 16, 0] ∧
      t.setup.pendingDiv = 2 ∧ t.setup.appliedDiv = none) ∧
    (t.ctrl.arrayState = .cold ∧ t.ctrl.indication = .none ∧ t.ctrl.progress = .idle ∧
      t.ctrl.shadows.toList = [0x0006, 0x0000, 0x0005, 0x0000] ∧
      (∀ i : Fin 4, t.ctrl.copies.get i = none) ∧ t.ctrl.readHold = none ∧
      t.ctrl.delays.toList = [32, 32] ∧
      (∀ i : Fin 2, (t.ctrl.lanes.get i).outcome = .none ∧ (t.ctrl.lanes.get i).lockTap = none ∧
        (t.ctrl.lanes.get i).trace = []) ∧
      t.ctrl.interruptions = 0 ∧ t.ctrl.probe = none ∧ t.ctrl.autoAlign = false ∧
      t.ctrl.arrayReset = true ∧ t.ctrl.clockEnable = false ∧ t.ctrl.retainMin = none ∧
      t.ctrl.exitHeld = false ∧ t.ctrl.restoreDue = false ∧ t.ctrl.dozeTimer = none) ∧
    (t.staging.words = [] ∧ t.staging.epoch = s.staging.epoch + 1 ∧ t.array.words = [] ∧
      t.array.epoch = s.array.epoch + 1 ∧ t.now = s.now ∧ t.draws = s.draws ∧
      t.pending = s.pending)

/-- The window after hardware reset (section 11.2), from any state: while RESET# is low no read is
taken (R192); after its rise every register but DP_DATA, whose words are unknown, reads 0000h except
those named. CMD_STATUS reads 0000h (R192). In any state with RESET# high the registers show the state
as R35, R187, R188, R189 and R190 lay it out, and while it is low no read is taken. -/
def Obligations.WindowReadsTheResetValues : Prop :=
  (∀ s : State, ∃ t u, exec .hardwareReset s = .next t ∧ exec .resetRelease t = .next u ∧
    (∀ offset : BitVec 6, t.readRegister offset = none) ∧
    ∀ offset : BitVec 6, offset ≠ 0x0D → u.readRegister offset = some (
      if offset = 0x07 then 0x1000
      else if offset = 0x11 then 6
      else if offset = 0x1B then 0xE600
      else if offset = 0x1D then 0x0F00
      else if offset = 0x2C then 0x0006
      else if offset = 0x2E then 0x0005
      else if offset = 0x3F then 0x2416
      else 0)) ∧
  (∀ (s : State) (offset : BitVec 6), s.resetLow = true → s.readRegister offset = none) ∧
  (∀ s : State, s.resetLow = false → RecordViewsShow s ∧ StatusViewsShow s ∧ SettingsReadBack s ∧
    CaptureAndModeViewsShow s)

/-! ### Posts and releases -/

/-- The nine checks of R23, in its order; the fields are read from the bits of R187 and R189. The
value written is ignored, and every array and capture state takes the post (R19). -/
def Obligations.PostReportsTheFirstFailingCheck : Prop :=
  ∀ (v : Word) (s : State), s.resetLow = false →
    ∃ t, exec (.post v) s = .next t ∧
      let tag : Byte := s.bus.subCtrl.setWidth 8
      let kind := s.bus.subCtrl.toNat / 256 % 8
      let close := s.bus.subCtrl.toNat / 2048 % 4
      let reads := kind = 0 ∨ kind = 3
      let address := s.bus.subAddrHi.toNat * 65536 + s.bus.subAddrLo.toNat
      let length := s.bus.subLength.toNat
      let slot := s.bus.subSlot.toNat
      let span := (length + 63) / 64
      t.bus.submitStatus =
        if 16 ≤ s.pool.queued.length + s.pool.active.toList.length + s.pool.done.length then
          .poolFull
        else if s.ctrl.arrayState = .cold ∨ s.ctrl.arrayState = .starting then .notReady
        else if 4 ≤ kind ∨ close = 3 then .badKind
        else if tag ∈ s.pool.tags then .tagBusy
        else if (reads ∧ (length = 0 ∨ 512 < length)) ∨
            (¬ reads ∧ (length < 4 ∨ 512 < length ∨ length % 4 ≠ 0)) then .lengthFault
        else if ¬ reads ∧ address % 4 ≠ 0 then .alignFault
        else if s.setup.workGeometry.rows * 8 * s.setup.workGeometry.cols < address + length then
          .rangeFault
        else if kind ≠ 2 ∧ 32 < slot + span then .slotFault
        else if kind ≠ 2 ∧ ∃ i : Fin 32, slot ≤ i.val ∧ i.val < slot + span ∧
            s.staging.owner.get i ≠ none then .slotBusy
        else .accepted

/-- A refused post changes the submit status and nothing else; posted again with the state
unchanged, the same fields are refused in the same way (R24). -/
def Obligations.RefusedPostChangesOnlyTheStatus : Prop :=
  ∀ (v w : Word) (s t : State), s.resetLow = false → exec (.post v) s = .next t →
    t.bus.submitStatus ≠ .accepted →
      t = { s with bus.submitStatus := t.bus.submitStatus } ∧ exec (.post w) t = .next t

/-- An accepted post where it wakes nothing (R25, R43, R44; where it does, `WakeCausesBeginAWake`): the
record is QUEUED last with the counter's number and age 0, the counter advances, the span is lent, the
status is ACCEPTED, the free count falls by 1, no buffer word changes, and nothing else happens. The
submitted fields come from the bits of R189; the slot is absent for a FILL and the pattern for the
other kinds (R20). -/
def Obligations.AcceptedPostQueuesTheRecord : Prop :=
  ∀ (v : Word) (s : State) (r : Request), s.resetLow = false → s.checkPost = .accepted →
    s.bus.submission = some r → NoWake s →
    ∃ owner : Vector (Option Byte) 32,
      exec (.post v) s = .next (PostQueued s r owner) ∧ SpanLent s r owner ∧
      ({ s.pool with queued := s.pool.queued ++ [⟨r, s.pool.counter, 0⟩] } : Pool).free + 1 =
        s.pool.free ∧
      r.tag = s.bus.subCtrl.setWidth 8 ∧ r.kind.code = s.bus.subCtrl.toNat / 256 % 8 ∧
      r.address = s.bus.subAddrHi.toNat * 65536 + s.bus.subAddrLo.toNat ∧
      r.length = s.bus.subLength.toNat ∧
      r.slot = (if r.kind = .fill then none else some s.bus.subSlot.toNat) ∧
      r.pattern = (if r.kind = .fill then some s.bus.subPattern else none) ∧
      (r.closeOption = .policy ↔ s.bus.subCtrl.toNat / 2048 % 4 = 0) ∧
      (r.closeOption = .keep ↔ s.bus.subCtrl.toNat / 2048 % 4 = 1) ∧
      (r.closeOption = .shut ↔ s.bus.subCtrl.toNat / 2048 % 4 = 2) ∧
      (r.urgent = true ↔ s.bus.subCtrl.toNat / 8192 % 2 = 1) ∧
      (r.notify = true ↔ s.bus.subCtrl.toNat / 16384 % 2 = 1)

/-- A release removes the head and nothing else, in every state; the head's tag is then free, the
free count rises by 1 and the depth falls by 1 (R36). The two premises on the pool are part of the
invariant of `PoolAndSlotsAgreeAtEveryStep`. -/
def Obligations.ReleaseFreesTheHead : Prop :=
  ∀ (v : Word) (s : State) (d : Completion) (rest : List Completion), s.resetLow = false →
    s.pool.done = d :: rest → s.pool.live ≤ 16 → s.pool.tags.Nodup →
    ∃ t, exec (.release v) s = .next t ∧ t = { s with pool.done := rest } ∧
      t.pool.free = s.pool.free + 1 ∧ d.tag ∉ t.pool.tags ∧
      t.pool.done.length + 1 = s.pool.done.length

/-- A release of an empty queue raises EMPTY_RELEASE with detail 0000h and changes nothing but the
Event Unit, so neither the queue nor the pool (R37). -/
def Obligations.EmptyReleaseFaults : Prop :=
  ∀ (v : Word) (s : State), s.resetLow = false → s.pool.done = [] →
    ∃ e, FaultTaken .emptyRelease 0 s.events e ∧
      exec (.release v) s = .next { s with events := e }

/-! ### Data port -/

/-- A data-port access (R47 to R50). In a HOST slot a write stores the value in the word at the pointer
and in no other, and a read drives that word's value and changes no word. In a LENT slot no word
changes, a read drives 0000h, and PORT_FAULT is raised with the word address. The pointer advances by 1
in every case, from 2047 to 0. -/
def Obligations.DataPortMovesTheWordAtThePointer : Prop :=
  ∀ (v : Word) (s : State), s.resetLow = false →
    (s.staging.owner[s.bus.dpPtr.toNat / 64]? = some none →
      (∃ t, exec (.dataPortWrite v) s = .next t ∧
        t = { s with bus.dpPtr := s.bus.dpPtr + 1, staging.words := t.staging.words } ∧
        (∀ a, t.staging.word a = if a = s.bus.dpPtr.toNat then v else s.staging.word a) ∧
        t.bus.dpPtr.toNat = (s.bus.dpPtr.toNat + 1) % 2048) ∧
      exec .dataPortRead s = .next { s with
        bus.dpPtr := s.bus.dpPtr + 1
        bus.dataOut := some (s.staging.word s.bus.dpPtr.toNat) }) ∧
    (∀ tag, s.staging.owner[s.bus.dpPtr.toNat / 64]? = some (some tag) →
      ∃ e, FaultTaken .portFault (s.bus.dpPtr.setWidth 16) s.events e ∧
        exec (.dataPortWrite v) s = .next { s with
          bus.dpPtr := s.bus.dpPtr + 1, events := e } ∧
        exec .dataPortRead s = .next { s with
          bus.dpPtr := s.bus.dpPtr + 1, bus.dataOut := some 0, events := e })

/-! ### Settings and registers -/

/-- TIMING_PARAMETER_WRITE (R15): settings 0 to 18 with the ranges of section 1.5. -/
def Obligations.TimingParameterIsStoredInItsRange : Prop :=
  ∀ (v : Word) (s : State) (n : Fin 19), s.resetLow = false → s.bus.paramSel.toNat = n.val →
    let range := [(2, 31), (4, 63), (2, 31), (2, 31), (2, 15), (1, 15), (16, 511), (2, 15), (4, 31),
      (64, 1023), (256, 65535), (2, 31), (5, 255), (16, 1023), (8, 63), (0, 65535), (1, 255),
      (1, 255), (8, 1023)].getD n.val (0, 0)
    (range.1 ≤ v.toNat ∧ v.toNat ≤ range.2 →
      exec (.timingParameterWrite v) s = .next { s with
        setup.host := s.setup.host.set n.val v.toNat n.isLt }) ∧
    (¬ (range.1 ≤ v.toNat ∧ v.toNat ≤ range.2) →
      ∃ e, FaultTaken .timingRange (s.bus.paramSel.setWidth 16) s.events e ∧
        exec (.timingParameterWrite v) s = .next { s with events := e })

/-- The settings 19 to 25 and 29 (R1, R17, R74, R86, R110, R161): a value in the set is stored, the
code or the signed number it stands for (R188); any other is not stored, and TIMING_RANGE is raised
with the setting's number. A write of URGENT_LEVEL down to the balance suspends an ALIGN between its
probes (R110, R158); where it begins a wake or abandons a doze entry it is stated in
`WakeCausesBeginAWake`. -/
def Obligations.SettingsAreStoredOrFault : Prop :=
  ∀ (v : Word) (s : State), s.resetLow = false →
    ((s.bus.paramSel = 19 → v ∈ [1, 2, 4] →
        exec (.arrayDivWrite v) s = .next { s with setup.pendingDiv := v.toNat }) ∧
      (s.bus.paramSel = 20 → v ∈ [4096, 8192, 16384, 32768] →
        exec (.geometryWrite v) s = .next { s with setup.hostGeometry.rows := v.toNat }) ∧
      (s.bus.paramSel = 21 → v ∈ [512, 1024] →
        exec (.geometryWrite v) s = .next { s with setup.hostGeometry.cols := v.toNat }) ∧
      (s.bus.paramSel = 22 →
        (v = 0 → exec (.policyWrite v) s = .next { s with table.policy := .openPage }) ∧
        (v = 1 → exec (.policyWrite v) s = .next { s with table.policy := .closedPage }) ∧
        (v = 2 → exec (.policyWrite v) s = .next { s with table.policy := .adaptive })) ∧
      (s.bus.paramSel = 23 → v.toNat ≤ 15 →
        exec (.ageLimitWrite v) s = .next { s with sched.ageLimit := v.toNat }) ∧
      (s.bus.paramSel = 24 → 1 ≤ v.toNat → v.toNat ≤ 8 →
        let betweenProbes := s.ctrl.progress = .probing ∧ s.ctrl.probe = none ∧
          s.ctrl.arrayState = .aligning
        (s.refresh.balance < v.toNat ∨ (NoWake s ∧ ¬ betweenProbes) →
          exec (.refreshSettingWrite v) s = .next { s with refresh.urgentLevel := v.toNat }) ∧
        (v.toNat ≤ s.refresh.balance → betweenProbes →
          exec (.refreshSettingWrite v) s = .next { s with
            refresh.urgentLevel := v.toNat, ctrl.progress := .suspendClear })) ∧
      (s.bus.paramSel = 25 → -8 ≤ v.toInt → v.toInt ≤ 0 →
        exec (.refreshSettingWrite v) s = .next { s with refresh.pullinFloor := v.toInt }) ∧
      (s.bus.paramSel = 29 → v.toNat ≤ 1 →
        exec (.autoAlignWrite v) s = .next { s with ctrl.autoAlign := decide (v = 1) })) ∧
    (∃ e, FaultTaken .timingRange (s.bus.paramSel.setWidth 16) s.events e ∧
        let faulted : Host.Outcome State Fault Refusal := .next { s with events := e }
        (s.bus.paramSel = 19 → v ∉ [1, 2, 4] → exec (.arrayDivWrite v) s = faulted) ∧
        (s.bus.paramSel = 20 → v ∉ [4096, 8192, 16384, 32768] →
          exec (.geometryWrite v) s = faulted) ∧
        (s.bus.paramSel = 21 → v ∉ [512, 1024] → exec (.geometryWrite v) s = faulted) ∧
        (s.bus.paramSel = 22 → 2 < v.toNat → exec (.policyWrite v) s = faulted) ∧
        (s.bus.paramSel = 23 → 15 < v.toNat → exec (.ageLimitWrite v) s = faulted) ∧
        (s.bus.paramSel = 24 → v.toNat = 0 ∨ 8 < v.toNat →
          exec (.refreshSettingWrite v) s = faulted) ∧
        (s.bus.paramSel = 25 → v.toInt < -8 ∨ 0 < v.toInt →
          exec (.refreshSettingWrite v) s = faulted) ∧
        (s.bus.paramSel = 29 → 1 < v.toNat → exec (.autoAlignWrite v) s = faulted))

/-- RING_DESCRIPTOR_WRITE (R121, R188): in IDLE all three fields are stored as written, base and size
with both offsets set to 0; in a run only a mark on a chunk position of the ring is stored, and any
other write is the fault TIMING_RANGE with the setting's number. -/
def Obligations.RingDescriptorFollowsTheCaptureState : Prop :=
  ∀ (v : Word) (s : State), s.resetLow = false →
    let w : BitVec 28 := s.bus.writeExt ++ v
    (s.capture.state = .idle →
      (s.bus.paramSel = 26 → exec (.ringDescriptorWrite v) s = .next { s with
        capture.base := w, capture.producer := 0, capture.consumer := 0 }) ∧
      (s.bus.paramSel = 27 → exec (.ringDescriptorWrite v) s = .next { s with
        capture.size := v, capture.producer := 0, capture.consumer := 0 }) ∧
      (s.bus.paramSel = 28 → exec (.ringDescriptorWrite v) s = .next { s with
        capture.mark := w })) ∧
    (s.capture.state ≠ .idle →
      (s.bus.paramSel = 28 → w.toNat % 32 = 0 → w.toNat < s.capture.size.toNat * 32 →
        exec (.ringDescriptorWrite v) s = .next { s with capture.mark := w }) ∧
      (s.bus.paramSel = 26 ∨ s.bus.paramSel = 27 ∨ (s.bus.paramSel = 28 ∧
          ¬ (w.toNat % 32 = 0 ∧ w.toNat < s.capture.size.toNat * 32)) →
        ∃ e, FaultTaken .timingRange (s.bus.paramSel.setWidth 16) s.events e ∧
          exec (.ringDescriptorWrite v) s = .next { s with events := e }))

/-- LANE_DELAY_WRITE (R160): during an alignment nothing is stored and DELAY_BUSY is raised whatever
the value; otherwise a tap of 0..63 replaces the lane's delay, and any other value is TIMING_RANGE.
The detail is the setting's number. An alignment runs in ALIGNING, and in STARTING at the Array
Controller's work named here (the model's reading, log 18). -/
def Obligations.LaneDelayIsBusyDuringAnAlignment : Prop :=
  ∀ (v : Word) (s : State) (lane : Fin 2), s.resetLow = false →
    s.bus.paramSel.toNat = 30 + lane.val →
    let busy := s.ctrl.arrayState = .aligning ∨ (s.ctrl.arrayState = .starting ∧
      s.ctrl.progress ∈ [.due .align, .probing, .probeDue, .endClear, .endSettle])
    (busy → ∃ e, FaultTaken .delayBusy (s.bus.paramSel.setWidth 16) s.events e ∧
      exec (.laneDelayWrite v) s = .next { s with events := e }) ∧
    (¬ busy → v.toNat ≤ 63 → exec (.laneDelayWrite v) s = .next { s with
      ctrl.delays := s.ctrl.delays.set lane.val (v.setWidth 6) lane.isLt }) ∧
    (¬ busy → 63 < v.toNat → ∃ e, FaultTaken .timingRange (s.bus.paramSel.setWidth 16) s.events e ∧
      exec (.laneDelayWrite v) s = .next { s with events := e })

/-- The registers without a check: DATA_PORT_POINTER_WRITE (R47), SHADOW_WRITE (R145: M1 keeps its
align-mode bit 7), EVENT_ENABLE_WRITE (R180), and PLAIN_REGISTER_WRITE, which stores the bits a
register holds and ignores a read-only one (R19, R186, R187, R188). That a PLAIN_REGISTER_WRITE at the
offset of a register with a command of its own (06h, 07h, 0Ch to 0Eh, 11h to 13h, 21h, 2Ch to 2Fh)
does nothing is the model's choice (log 12): no bus cycle is such a command. -/
def Obligations.PlainWritesStoreTheirBits : Prop :=
  ∀ (v : Word) (s : State), s.resetLow = false →
    exec (.dataPortPointerWrite v) s = .next { s with bus.dpPtr := v.setWidth 11 } ∧
    (∀ w : Fin 4, w ≠ 1 → exec (.shadowWrite w v) s = .next { s with
      ctrl.shadows := s.ctrl.shadows.set w.val v w.isLt }) ∧
    exec (.shadowWrite 1 v) s = .next { s with
      ctrl.shadows := s.ctrl.shadows.set 1
        ((v &&& 0xFF7F#16) ||| (s.ctrl.shadows.get 1 &&& 0x0080#16)) } ∧
    exec (.eventEnableWrite v) s = .next { s with events.enables := v.setWidth 8 } ∧
    exec (.plainRegisterWrite 0x00 v) s = .next { s with bus.subAddrLo := v } ∧
    exec (.plainRegisterWrite 0x01 v) s = .next { s with bus.subAddrHi := v.setWidth 12 } ∧
    exec (.plainRegisterWrite 0x02 v) s = .next { s with bus.subLength := v.setWidth 10 } ∧
    exec (.plainRegisterWrite 0x03 v) s = .next { s with bus.subCtrl := v.setWidth 15 } ∧
    exec (.plainRegisterWrite 0x04 v) s = .next { s with bus.subSlot := v.setWidth 5 } ∧
    exec (.plainRegisterWrite 0x05 v) s = .next { s with bus.subPattern := v } ∧
    exec (.plainRegisterWrite 0x0F v) s = .next { s with bus.writeExt := v.setWidth 12 } ∧
    exec (.plainRegisterWrite 0x10 v) s = .next { s with bus.paramSel := v.setWidth 5 } ∧
    (∀ o : BitVec 6, o ∉ [0x00, 0x01, 0x02, 0x03, 0x04, 0x05, 0x0F, 0x10] →
      exec (.plainRegisterWrite o v) s = .next s)

/-- EVENT_ACKNOWLEDGE (R179): each flag named by a bit of the value is cleared, no other changes, and
naming FAULT (bit 7) empties the fault record. INT# follows the flags and the enables (R180). -/
def Obligations.AcknowledgeClearsTheNamedFlags : Prop :=
  ∀ (v : Word) (s : State), s.resetLow = false →
    ∃ t, exec (.eventAcknowledge v) s = .next t ∧
      t = { s with events.flags := t.events.flags, events.record := t.events.record } ∧
      (∀ i : Fin 8, t.events.flags.getLsbD i = (s.events.flags.getLsbD i && !v.getLsbD i)) ∧
      t.events.record = (if v.getLsbD 7 then none else s.events.record) ∧
      (t.intAsserted = true ↔
        ∃ i : Fin 8, t.events.flags.getLsbD i = true ∧ t.events.enables.getLsbD i = true)

/-- CONSUMER_WRITE (R129, R188): a write that passes replaces the consumer offset, and one that fails
changes nothing but raises CONSUMER_FAULT with the offset divided by 32. Passing is stated where no
chunk demand results or it wakes nothing (R168, R169; where it does, `WakeCausesBeginAWake`). -/
def Obligations.ConsumerWriteMovesOverWrittenChunks : Prop :=
  ∀ (v : Word) (s : State), s.resetLow = false →
    let w := s.bus.writeExt.toNat % 32 * 65536 + v.toNat
    let ring := s.capture.size.toNat * 32
    let fill := (s.capture.producer + ring - s.capture.consumer) % ring
    let passes := w = s.capture.producer ∨
      (w % 32 = 0 ∧ w < ring ∧ (w + ring - s.capture.consumer) % ring ≤ fill)
    (passes → NoWake s ∨ ({ s.capture with consumer := w } : Capture).demand = false →
      exec (.consumerWrite v) s = .next { s with capture.consumer := w }) ∧
    (¬ passes → ∃ e, FaultTaken .consumerFault (BitVec.ofNat 16 (w / 32)) s.events e ∧
      exec (.consumerWrite v) s = .next { s with events := e })

/-- Every bus write cycle is a well-formed command of the table (R186 to R190), and a write to the
command register, 0Eh, of a value that is none of the eleven codes raises COMMAND_FAULT with that value
and changes nothing but the Event Unit (R190). -/
def Obligations.EveryWriteCycleIsACommand : Prop :=
  (∀ (u : Bus) (offset : BitVec 6) (v : Word), (u.writeCommand offset v).wellFormed = true) ∧
  (∀ (v : Word) (s : State), s.resetLow = false → v = 0 ∨ 11 < v.toNat →
    s.bus.writeCommand 0x0E v = .unknownCommandWrite v ∧
    ∃ e, FaultTaken .commandFault v s.events e ∧
      exec (.unknownCommandWrite v) s = .next { s with events := e })

/-! ### Commands -/

/-- START_ARRAY (R140, and the entry of RESET_HOLD in R141, R17): accepted in COLD with a valid
image, refused with MODE_FAULT on an invalid one and with STATE in every other array state. -/
def Obligations.StartArrayBeginsTheStartUp : Prop :=
  ∀ s : State, s.resetLow = false →
    (s.ctrl.arrayState = .cold → ImageValid s.ctrl.shadows →
      exec .startArray s = .next { s with
        bus.lastCode := 1
        bus.outcome := .accepted
        ctrl.arrayState := .starting
        ctrl.indication := .starting
        ctrl.loadImage := s.ctrl.shadows
        ctrl.progress := .resetHold (s.now + s.setup.host.get 16 * 1024)
        setup.workGeometry := s.setup.hostGeometry
        setup.appliedDiv := some s.setup.pendingDiv
        sched.job := some .procedure }) ∧
    (s.ctrl.arrayState = .cold → ¬ ImageValid s.ctrl.shadows →
      exec .startArray s = .next { s with bus.lastCode := 1, bus.outcome := .modeFault }) ∧
    (s.ctrl.arrayState ≠ .cold →
      exec .startArray s = .next { s with bus.lastCode := 1, bus.outcome := .state })

/-- SET_MODE, ALIGN and RETAIN_ENTER accepted in READY raise the drain claim (R82, R148, R153, R171). A
doze entry is abandoned by each, so its job ends (R167). SET_MODE takes the host copies 0 to 15 as
working set (R16), the shadows as image, and as load words those whose shadow differs from the array
copy, in the order M1, M2, M3, M0 (R150). ALIGN clears the alignment record and both lanes search from
tap 0. RETAIN_ENTER leaves the array READY with retain entry pending. -/
def Obligations.ProcedureCommandsInReadyRaiseTheDrain : Prop :=
  ∀ s : State, s.resetLow = false → s.ctrl.arrayState = .ready →
    let job :=
      if s.dozeEntry = true ∧ s.sched.job = some .procedure then none else s.sched.job
    (s.ctrl.indication ≠ .retainPending → ImageValid s.ctrl.shadows →
      ∃ w : Vector Nat 16, (∀ n : Fin 16, w.get n = s.setup.host.get (n.castLE (by decide))) ∧
        exec .setMode s = .next { s with
          bus.lastCode := 2
          bus.outcome := .accepted
          setup.working := w
          ctrl.arrayState := .setting
          ctrl.indication := .setting
          ctrl.loadImage := s.ctrl.shadows
          ctrl.loadWords := [1, 2, 3, 0].filter fun i =>
            decide (s.ctrl.copies.get i ≠ some (s.ctrl.shadows.get i))
          ctrl.dozeTimer := none
          ctrl.progress := .draining .setMode
          sched.job := job }) ∧
    (s.ctrl.indication ≠ .retainPending →
      exec .align s = .next { s with
        bus.lastCode := 3
        bus.outcome := .accepted
        ctrl.arrayState := .aligning
        ctrl.indication := .aligning
        ctrl.lanes := #v[⟨.none, none, [], true⟩, ⟨.none, none, [], true⟩]
        ctrl.interruptions := 0
        ctrl.nextTap := 0
        ctrl.dozeTimer := none
        ctrl.progress := .draining .align
        sched.job := job }) ∧
    (s.ctrl.indication = .none → s.capture.state = .idle →
      exec .retainEnter s = .next { s with
        bus.lastCode := 4
        bus.outcome := .accepted
        ctrl.indication := .retainPending
        ctrl.progress := .draining .retain
        ctrl.dozeTimer :=
          if s.dozeEntry = true then DozeTimerAfter s s.now else s.ctrl.dozeTimer
        sched.job := job })

/-- SET_MODE, ALIGN and RETAIN_ENTER accepted in DOZING (R148, R153, R169, R171): each begins a wake,
with NAP_OUT issued at once (log 23), or leaves the wake that is in progress to run on, and its drain
claim waits for the wake's end. SET_MODE takes working set, image and load words as in READY (R16,
R150), and the wake that it begins has the NAP_EXIT_TIME it has just loaded (log 29); ALIGN clears the
alignment record; RETAIN_ENTER leaves the array DOZING with retain entry pending. Nothing else changes.
-/
def Obligations.ProcedureCommandsWakeADozingArray : Prop :=
  ∀ s : State, s.resetLow = false → s.ctrl.arrayState = .dozing →
    let woken (u : State) (napExit : Nat) : State := if s.waking = true then u else WakeFrom u napExit
    (s.ctrl.indication ≠ .retainPending → ImageValid s.ctrl.shadows →
      ∃ w : Vector Nat 16, (∀ n : Fin 16, w.get n = s.setup.host.get (n.castLE (by decide))) ∧
        exec .setMode s = .next (woken { s with
          bus.lastCode := 2
          bus.outcome := .accepted
          setup.working := w
          ctrl.arrayState := .setting
          ctrl.indication := .setting
          ctrl.loadImage := s.ctrl.shadows
          ctrl.loadWords := [1, 2, 3, 0].filter fun i =>
            decide (s.ctrl.copies.get i ≠ some (s.ctrl.shadows.get i))
          ctrl.dozeTimer := none } (s.setup.host.get 11))) ∧
    (s.ctrl.indication ≠ .retainPending →
      exec .align s = .next (woken { s with
        bus.lastCode := 3
        bus.outcome := .accepted
        ctrl.arrayState := .aligning
        ctrl.indication := .aligning
        ctrl.lanes := #v[⟨.none, none, [], true⟩, ⟨.none, none, [], true⟩]
        ctrl.interruptions := 0
        ctrl.nextTap := 0
        ctrl.dozeTimer := none } (s.setup.working.get 11))) ∧
    (s.ctrl.indication = .none → s.capture.state = .idle →
      exec .retainEnter s = .next (woken { s with
        bus.lastCode := 4
        bus.outcome := .accepted
        ctrl.indication := .retainPending } (s.setup.working.get 11)))

/-- RETAIN_EXIT accepted (R174): held until the expiry of RETAIN_MIN is taken, or else the exit
sequence begins. At the point of the expiry itself R176 orders the two; that the exit is held also at a
point that has passed with its expiry not yet taken is the model's choice (log 3). The exit sequence:
the pending divisor is compared and applied, RETAIN_OUT is issued (log 23), clock enable rises, and the
sequence holds the path until RETAIN_EXIT_TIME, parameter 13, has passed (steps 1 and 2 of R175). -/
def Obligations.RetainExitIsHeldOrBegins : Prop :=
  ∀ s : State, s.resetLow = false → s.ctrl.arrayState = .retaining → s.ctrl.exitHeld = false →
    s.ctrl.progress = .idle →
    (∀ point, s.ctrl.retainMin = some point →
      exec .retainExit s = .next { s with
        bus.lastCode := 5, bus.outcome := .accepted, ctrl.exitHeld := true }) ∧
    (s.ctrl.retainMin = none →
      exec .retainExit s = .next { s with
        bus.lastCode := 5
        bus.outcome := .accepted
        now := s.issuePoint
        port := some ⟨.retainOut, s.issuePoint⟩
        setup.appliedDiv := some s.setup.pendingDiv
        ctrl.clockEnable := true
        ctrl.progress := .exitTime (s.issuePoint + s.setup.working.get 13)
          (decide (s.setup.appliedDiv ≠ some s.setup.pendingDiv))
        sched.job := some .procedure })

/-- CLOSE_ALL in READY (R75): every OPEN or OPENING bank is marked, every other bank is left as it is,
and nothing else changes, unless a doze entry whose drain claim is not yet granted is abandoned by it,
because it leaves a mark to shut (R167): the claim is withdrawn and the doze idle timer restarts.
CLEAR_RETENTION outside COLD clears the retention-lost flag and nothing else (R112). -/
def Obligations.CloseAllMarksAndClearRetentionClears : Prop :=
  ∀ s : State, s.resetLow = false →
    (s.ctrl.arrayState = .ready →
      let rowOpen := ∃ b : Fin 8, (s.bank b).state = .opening ∨ (s.bank b).state = .opened
      ∃ banks : Vector Bank 8,
        (s.ctrl.progress ≠ .draining .doze ∨ ¬ rowOpen →
          exec .closeAll s = .next { s with
            bus.lastCode := 6, bus.outcome := .accepted, table.banks := banks }) ∧
        (s.ctrl.progress = .draining .doze → rowOpen →
          exec .closeAll s = .next { s with
            bus.lastCode := 6
            bus.outcome := .accepted
            table.banks := banks
            ctrl.progress := .idle
            ctrl.dozeTimer := DozePeriodFrom s s.now
            sched.job := if s.sched.job = some .procedure then none else s.sched.job }) ∧
        ∀ b : Fin 8, banks.get b =
          if (s.bank b).state = .opening ∨ (s.bank b).state = .opened then
            { s.bank b with mark := true }
          else s.bank b) ∧
    (s.ctrl.arrayState ≠ .cold →
      exec .clearRetention s = .next { s with
        bus.lastCode := 8, bus.outcome := .accepted, refresh.retentionLost := false })

/-- ABORT outside COLD (R96, R97): the QUEUED records join the completion queue ABORTED with words done
0, oldest first, and after them the ACTIVE one, if none of its bursts is in flight; with one in flight
it stays ACTIVE, being aborted. Either way its burst job ends (log 15). The slots of every record
finished here return to HOST and no other slot changes (R45), and COMPLETION is set if one of them
asked for it (R39). Nothing else changes. -/
def Obligations.AbortFinishesTheWaitingRecords : Prop :=
  ∀ s : State, s.resetLow = false → s.ctrl.arrayState ≠ .cold →
    let suspect (k : Kind) : Option Bool :=
      if k = .read ∨ k = .compare then some s.refresh.retentionLost else none
    let inFlight := s.sched.inFlight.any (fun x => decide (x.user = .record)) = true
    let finished : List Active := if inFlight then [] else s.pool.active.toList
    let requests := s.pool.queued.map (fun q => q.req) ++ finished.map (fun a => a.req)
    ∃ owner : Vector (Option Byte) 32,
      exec .abort s = .next { s with
        bus.lastCode := 7
        bus.outcome := .accepted
        pool := ⟨[], if inFlight then s.pool.active.map (fun a => { a with aborting := true }) else none,
          s.pool.done ++
            s.pool.queued.map (fun q =>
              ⟨q.req.tag, q.req.kind, q.seq, .aborted, 0, suspect q.req.kind, none⟩) ++
            finished.map (fun a =>
              ⟨a.req.tag, a.req.kind, a.seq, .aborted, a.wordsDone, suspect a.req.kind, none⟩),
          s.pool.counter⟩
        staging.owner := owner
        events.flags :=
          if requests.any (fun r => r.notify) then s.events.flags ||| 0x01#8 else s.events.flags
        sched.job :=
          if s.pool.active ≠ none ∧ s.sched.job = some .recordBurst then none else s.sched.job } ∧
      ∀ i : Fin 32,
        ((∃ r, r ∈ requests ∧ SpanCovers r i) → owner.get i = none) ∧
        ((¬ ∃ r, r ∈ requests ∧ SpanCovers r i) → owner.get i = s.staging.owner.get i)

/-- CAPTURE_START on a valid ring (R122) in IDLE empties FIFO and assembler, clears offsets and counts,
and begins a run (R124). CAPTURE_STOP in RUNNING (R131, R132) discards a held byte; an empty FIFO ends
the run at once with STOPPED and pad count 0; otherwise words 0000h pad the level up to a multiple of
32, the pad count is their number, and the run drains; stated where no chunk demand results or it wakes
nothing (R168; where it does, log 25 and `WakeCausesBeginAWake`). -/
def Obligations.CaptureRunsBeginAndEnd : Prop :=
  ∀ s : State, s.resetLow = false →
    (s.capture.state = .idle → s.ctrl.indication ≠ .retainPending →
      s.ctrl.arrayState ∈ [.ready, .setting, .aligning, .dozing] →
      s.capture.base.toNat % 32 = 0 → 2 ≤ s.capture.size.toNat →
      s.capture.base.toNat + s.capture.size.toNat * 32 ≤
        s.setup.workGeometry.rows * 8 * s.setup.workGeometry.cols →
      s.capture.mark.toNat % 32 = 0 → s.capture.mark.toNat < s.capture.size.toNat * 32 →
      exec .captureStart s = .next { s with
        bus.lastCode := 9
        bus.outcome := .accepted
        capture.state := .running
        capture.fifo := []
        capture.assembler := none
        capture.producer := 0
        capture.consumer := 0
        capture.drops := 0
        capture.pad := 0 }) ∧
    (s.capture.state = .running → s.capture.fifo = [] →
      exec .captureStop s = .next { s with
        bus.lastCode := 10
        bus.outcome := .accepted
        capture.state := .idle
        capture.assembler := none
        capture.pad := 0
        events.flags := s.events.flags ||| 0x08#8 }) ∧
    (s.capture.state = .running → s.capture.fifo ≠ [] → NoWake s ∨ s.capture.hasRoom = false →
      ∃ n, n < 32 ∧ (s.capture.fifo.length + n) % 32 = 0 ∧
        exec .captureStop s = .next { s with
          bus.lastCode := 10
          bus.outcome := .accepted
          capture.state := .draining
          capture.assembler := none
          capture.fifo := s.capture.fifo ++ List.replicate n 0
          capture.pad := n })

/-- SOFT_RESET with nothing in flight takes effect at the command, in every array state (R191): records,
completions, slots, capture run, flags and fault record are emptied, the job on the path ends unless it
is a wake or a retain exit (R101), and everything R191 lists as kept is kept. On the array side (R162,
R177): in COLD nothing more; in READY a doze entry is abandoned (R167) and so is a retain entry pending;
in DOZING a wake runs on and a retain entry pending is abandoned; in SETTING and ALIGNING every lane that
was searching is FAILED and the restore is due, after a wake in progress, and it finds whether the
SET_MODE had issued a MODE_LOAD; STARTING returns to COLD, the array's contents and copies unknown (R18,
R145); in RETAINING a held exit is withdrawn and an exit sequence runs on. -/
def Obligations.SoftResetEmptiesTheHostSide : Prop :=
  ∀ s : State, s.resetLow = false → s.inFlight = false →
    ∃ owner : Vector (Option Byte) 32, (∀ i : Fin 32, owner.get i = none) ∧
    ∃ lanes : Vector Lane 2, LanesGivenUp s.ctrl.lanes lanes ∧
      let emptied := HostSideEmptied s owner
      let cleared (job : Option Job) (c : Ctrl) : State := { emptied with
        bus.lastCode := 11, bus.outcome := .accepted, sched.job := job, ctrl := c }
      let leaves (job : Option Job) (c : Ctrl) : Prop := exec .softReset s = .next (cleared job c)
      let restoreWith (p : Progress) : Ctrl :=
        { s.ctrl with lanes := lanes, restoreDue := true, probe := none, progress := p }
      let kept : Option Job := if s.sched.job = some .procedure then some .procedure else none
      (s.ctrl.arrayState = .cold → s.ctrl.progress = .idle →
        leaves none { s.ctrl with probe := none }) ∧
      (s.ctrl.arrayState = .ready →
        (s.dozeEntry = true → leaves none { s.ctrl with
          probe := none, progress := .idle, dozeTimer := DozePeriodFrom s s.now }) ∧
        (s.ctrl.indication ≠ .retainPending → s.ctrl.progress = .idle →
          leaves none { s.ctrl with probe := none }) ∧
        (s.ctrl.indication = .retainPending → s.ctrl.progress ∈
            [.idle, .draining .retain, .shutAll .retain, .renewing .retain, .due .retain] →
          leaves none { s.ctrl with
            probe := none, indication := .none, progress := .idle })) ∧
      (s.ctrl.arrayState = .dozing →
        let indication : Indication :=
          if s.ctrl.indication = .retainPending then .none else s.ctrl.indication
        (s.ctrl.progress = .idle →
          leaves none { s.ctrl with probe := none, indication := indication }) ∧
        (s.waking = true →
          leaves kept { s.ctrl with probe := none, indication := indication })) ∧
      (s.ctrl.arrayState = .setting ∨ s.ctrl.arrayState = .aligning →
        (s.waking = true → leaves kept (restoreWith s.ctrl.progress)) ∧
        (s.ctrl.progress = .idle ∨ (∃ d, s.ctrl.progress = .draining d) →
          leaves none (restoreWith .idle)) ∧
        (s.ctrl.progress = .loading ∨ s.ctrl.progress = .restoreShut true ∨
            s.ctrl.progress = .stopped true →
          leaves none (restoreWith (.stopped true))) ∧
        (s.ctrl.progress ∈ [.shutAll .setMode, .renewing .setMode, .due .setMode, .shutAll .align,
            .renewing .align, .due .align, .renewed, .probing, .probeDue, .suspendClear,
            .suspendSettle, .suspendRenew, .suspendSet, .suspendResume, .endClear, .endSettle,
            .restoreLoad, .restoreShut false, .stopped false] →
          leaves none (restoreWith (.stopped false)))) ∧
      (s.ctrl.arrayState = .starting →
        let cold := cleared none (BackToCold s.ctrl lanes)
        exec .softReset s = .next { cold with array := ⟨[], s.array.epoch + 1⟩ }) ∧
      (s.ctrl.arrayState = .retaining →
        (s.ctrl.progress = .idle → leaves none { s.ctrl with probe := none, exitHeld := false }) ∧
        ((∃ p c, s.ctrl.progress = .exitTime p c) ∨ s.ctrl.progress = .exitLoad ∨
            s.ctrl.progress = .exitSettle →
          leaves kept { s.ctrl with probe := none, exitHeld := false }))

/-- SOFT_RESET with a burst or a RENEW in flight is pending: the arbiter makes no grant, the job on the
path has ended, unless it is a wake or a retain exit, a probe in flight is not sampled, the Array
Controller's work stands or is stopped, and nothing else changes (R101, R162, R177, R191); a doze or a
retain entry stands until the taking effect.
SOFT_RESET_TAKES_EFFECT does nothing while something is in flight, and otherwise empties the host side
and clears the pending bit. On the array side (R162, R177) a doze entry is abandoned (R167), a retain
entry pending is abandoned, and a wake runs on; a held exit is withdrawn; SETTING and ALIGNING wait for
their restore, every lane that was searching FAILED, and the restore finds whether the SET_MODE had
issued a MODE_LOAD; STARTING returns to COLD. A doze or retain entry that began after the command is
abandoned alike (the model's choice, log 35). A SOFT_RESET with nothing in flight is stated in
`SoftResetEmptiesTheHostSide`. -/
def Obligations.SoftResetWaitsForWhatIsInFlight : Prop :=
  ∀ s : State, s.resetLow = false →
    let runsOn := s.waking = true ∨ (∃ p c, s.ctrl.progress = .exitTime p c) ∨
      s.ctrl.progress ∈ [.exitLoad, .exitSettle]
    (s.inFlight = true → ∃ t, exec .softReset s = .next t ∧
      t = { s with
        bus.lastCode := 11
        bus.outcome := .accepted
        bus.softPending := true
        sched.job := t.sched.job
        ctrl.probe := none
        ctrl.progress := t.ctrl.progress } ∧
      t.arbiterOpen = false ∧
      (runsOn → t.ctrl.progress = s.ctrl.progress ∧
        t.sched.job = (if s.sched.job = some .procedure then some .procedure else none)) ∧
      (¬ runsOn → t.sched.job = none) ∧
      (s.ctrl.progress = .idle ∨ (∃ d, s.ctrl.progress = .draining d) ∨ s.dozeEntry = true ∨
          s.ctrl.progress ∈ [.shutAll .retain, .renewing .retain, .due .retain] →
        t.ctrl.progress = s.ctrl.progress) ∧
      (s.ctrl.progress = .loading ∨ s.ctrl.progress = .restoreShut true ∨
          s.ctrl.progress = .stopped true →
        t.ctrl.progress = .stopped true) ∧
      (s.ctrl.progress ∈ [.shutAll .setMode, .renewing .setMode, .due .setMode, .shutAll .align,
          .renewing .align, .due .align, .renewed, .probing, .probeDue, .suspendClear,
          .suspendSettle, .suspendRenew, .suspendSet, .suspendResume, .endClear, .endSettle,
          .restoreLoad, .restoreShut false, .stopped false] →
        t.ctrl.progress = .stopped false)) ∧
    (s.inFlight = true → exec .softResetTakesEffect s = .next s) ∧
    (s.inFlight = false → s.bus.softPending = true →
      ∃ (owner : Vector (Option Byte) 32) (lanes : Vector Lane 2) (t : State),
        let emptied := HostSideEmptied s owner
        (∀ i : Fin 32, owner.get i = none) ∧ LanesGivenUp s.ctrl.lanes lanes ∧
        exec .softResetTakesEffect s = .next t ∧
        t = { emptied with sched.job := t.sched.job, ctrl := t.ctrl, array := t.array } ∧
        (s.ctrl.arrayState = .cold → t.ctrl = s.ctrl) ∧
        (s.ctrl.arrayState ≠ .starting → t.array = s.array ∧
          (s.dozeEntry = false → t.sched.job = s.sched.job)) ∧
        (s.ctrl.arrayState = .starting → t.array = ⟨[], s.array.epoch + 1⟩ ∧
          t.sched.job = none ∧ t.ctrl = BackToCold s.ctrl lanes) ∧
        ((s.ctrl.arrayState = .setting ∨ s.ctrl.arrayState = .aligning) →
          t.sched.job = s.sched.job ∧
          t.ctrl = { s.ctrl with
            lanes := lanes, restoreDue := true, probe := none, progress := t.ctrl.progress } ∧
          (s.waking = true ∨ (∃ loaded, s.ctrl.progress = .stopped loaded) →
            t.ctrl.progress = s.ctrl.progress) ∧
          (s.ctrl.progress = .idle ∨ (∃ d, s.ctrl.progress = .draining d) →
            t.ctrl.progress = .idle)) ∧
        ((s.ctrl.arrayState = .ready ∨ s.ctrl.arrayState = .dozing) →
          (s.dozeEntry = true → t = AbandonFrom emptied) ∧
          (s.dozeEntry = false → s.ctrl.indication = .retainPending →
            t.ctrl = { s.ctrl with
              indication := .none
              progress := if s.waking = true then s.ctrl.progress else .idle }) ∧
          (s.dozeEntry = false → s.ctrl.indication ≠ .retainPending → t.ctrl = s.ctrl)) ∧
        (s.ctrl.arrayState = .retaining → t.ctrl = { s.ctrl with exitHeld := false }))

/-- Every refused command changes the command status alone: its code, and STATE, MODE_FAULT or
RING_FAULT (R184, R190; the conditions are those of R140, R148, R153, R171, R174, R75, R96, R112,
R124, R131). -/
def Obligations.RefusedCommandsChangeOnlyTheStatus : Prop :=
  ∀ s : State, s.resetLow = false →
    let a := s.ctrl.arrayState
    let refused (code : BitVec 4) (o : CommandOutcome) : Host.Outcome State Fault Refusal :=
      .next { s with bus.lastCode := code, bus.outcome := o }
    let barred := a ∉ [.ready, .dozing] ∨ s.ctrl.indication = .retainPending
    let noCapture := s.capture.state ≠ .idle ∨ s.ctrl.indication = .retainPending ∨
      a ∉ [.ready, .setting, .aligning, .dozing]
    (barred → exec .setMode s = refused 2 .state ∧ exec .align s = refused 3 .state) ∧
    (¬ barred → ¬ ImageValid s.ctrl.shadows → exec .setMode s = refused 2 .modeFault) ∧
    (a ∉ [.ready, .dozing] ∨ s.capture.state ≠ .idle ∨ s.ctrl.indication ≠ .none →
      exec .retainEnter s = refused 4 .state) ∧
    (a ≠ .retaining ∨ s.ctrl.exitHeld = true ∨ (∃ p c, s.ctrl.progress = .exitTime p c) ∨
        s.ctrl.progress = .exitLoad ∨ s.ctrl.progress = .exitSettle →
      exec .retainExit s = refused 5 .state) ∧
    (a ≠ .ready → exec .closeAll s = refused 6 .state) ∧
    (a = .cold → exec .abort s = refused 7 .state ∧ exec .clearRetention s = refused 8 .state) ∧
    (noCapture → exec .captureStart s = refused 9 .state) ∧
    (¬ noCapture → ¬ (s.capture.base.toNat % 32 = 0 ∧ 2 ≤ s.capture.size.toNat ∧
        s.capture.base.toNat + s.capture.size.toNat * 32 ≤
          s.setup.workGeometry.rows * 8 * s.setup.workGeometry.cols ∧
        s.capture.mark.toNat % 32 = 0 ∧ s.capture.mark.toNat < s.capture.size.toNat * 32) →
      exec .captureStart s = refused 9 .ringFault) ∧
    (s.capture.state ≠ .running → exec .captureStop s = refused 10 .state)

/-! ### Arrivals, timers and windows -/

/-- CAPTURE_BYTE_ARRIVAL (R118, R119): ignored unless RUNNING; the first byte is held, the second makes
a word with it, low half first; the word joins the FIFO's tail below 256 words, and is dropped at 256:
the drop count rises, at most to 65535, and OVERRUN is set. A kept word is stated where no chunk demand
results or it wakes nothing (R168, R169; where it does, `WakeCausesBeginAWake`). -/
def Obligations.CaptureBytesMakeWords : Prop :=
  ∀ (b : Byte) (s : State), s.resetLow = false →
    (s.capture.state ≠ .running → exec (.captureByteArrival b) s = .next s) ∧
    (s.capture.state = .running → s.capture.assembler = none →
      exec (.captureByteArrival b) s = .next { s with capture.assembler := some b }) ∧
    (∀ low, s.capture.state = .running → s.capture.assembler = some low →
      (s.capture.fifo.length < 256 →
        NoWake s ∨ s.capture.fifo.length < 31 ∨ s.capture.hasRoom = false →
        exec (.captureByteArrival b) s = .next { s with
          capture.assembler := none, capture.fifo := s.capture.fifo ++ [b ++ low] }) ∧
      (256 ≤ s.capture.fifo.length →
        exec (.captureByteArrival b) s = .next { s with
          capture.assembler := none
          capture.drops := min 65535 (s.capture.drops + 1)
          events.flags := s.events.flags ||| 0x04#8 }))

/-- REFRESH_PERIOD_EXPIRY (R103, R104), taken at the timer's point or, if that has passed, at the
present AC (log 3). The timer restarts with a full period from its own point, and the balance rises by
1 below +8; at +8 it stays, the violation count rises to at most 255, retention-lost is set,
RETENTION_LOST is set if it was clear, and the array's words are unknown (R18), but for those a read in
flight has captured, two in each AC of its data interval (R9, log 33). A new balance at or above
URGENT_LEVEL suspends an alignment that is between probes, unless the next probe is due at this very
completion, and not while a probe is in flight (R158, R163); it abandons a doze entry (R167), and in
DOZING it begins a wake, unless one is in progress (R168, R169). -/
def Obligations.RefreshPeriodRaisesTheBalance : Prop :=
  ∀ (s : State) (point : Nat), s.resetLow = false → s.refresh.timer = some point →
    s.refresh.balance ≤ 8 →
    let t := max s.now point
    let timer := some (point + s.setup.working.get 10)
    let captured (x : Burst) : List Word :=
      (List.range (min x.length (2 * (t - (x.done - x.length / 2))))).map fun j =>
        (x.data[j]?).getD (s.array.word (x.base + j))
    let u : State :=
      if s.refresh.balance < 8 then
        { s with now := t, refresh.timer := timer, refresh.balance := s.refresh.balance + 1 }
      else { s with
        now := t
        refresh.timer := timer
        refresh.violations := min 255 (s.refresh.violations + 1)
        refresh.retentionLost := true
        events.flags :=
          if s.refresh.retentionLost then s.events.flags else s.events.flags ||| 0x10#8
        array := ⟨[], s.array.epoch + 1⟩
        sched.inFlight := s.sched.inFlight.map fun x =>
          if x.isWrite then x else { x with data := captured x } }
    let urgent := u.refresh.urgentLevel ≤ u.refresh.balance
    let betweenProbes := s.ctrl.progress = .probing ∧ s.ctrl.probe = none ∧
      s.ctrl.arrayState = .aligning
    (¬ urgent ∨ (NoWake s ∧ ¬ betweenProbes) → exec .refreshPeriodExpiry s = .next u) ∧
    (urgent → s.ctrl.arrayState = .dozing → s.waking = false →
      exec .refreshPeriodExpiry s = .next (WakeFrom u (s.setup.working.get 11))) ∧
    (urgent → betweenProbes →
      exec .refreshPeriodExpiry s = .next { u with ctrl.progress := .suspendClear }) ∧
    (urgent → s.ctrl.arrayState ≠ .dozing → s.dozeEntry = true →
      exec .refreshPeriodExpiry s = .next (AbandonFrom u))

/-- Any of these taken in DOZING with no wake in progress begins a wake (R169), with NAP_OUT issued at
once (log 23): an accepted post, a captured word that raises a chunk demand, the padding of a
CAPTURE_STOP that does (log 25), a consumer write that does, a refresh period that brings the balance
to URGENT_LEVEL, a write of URGENT_LEVEL down to the balance. Each, taken in a doze entry, abandons it
(R167). Each has its own effect as well, and nothing else changes. A refresh period at any balance, and
in a doze entry, is stated in `RefreshPeriodRaisesTheBalance`. -/
def Obligations.WakeCausesBeginAWake : Prop :=
  ∀ s : State, s.resetLow = false →
    (s.ctrl.arrayState = .dozing ∧ s.waking = false) ∨
      (s.ctrl.arrayState = .ready ∧ s.dozeEntry = true) →
    (∀ v r, s.checkPost = .accepted → s.bus.submission = some r →
      ∃ owner : Vector (Option Byte) 32, SpanLent s r owner ∧
        exec (.post v) s = .next (Roused s (PostQueued s r owner))) ∧
    (∀ b low, s.capture.state = .running → s.capture.assembler = some low →
      s.capture.fifo.length < 256 → 31 ≤ s.capture.fifo.length → s.capture.hasRoom = true →
      exec (.captureByteArrival b) s = .next (Roused s { s with
        capture.assembler := none, capture.fifo := s.capture.fifo ++ [b ++ low] })) ∧
    (s.capture.state = .running → s.capture.fifo ≠ [] → s.capture.hasRoom = true →
      ∃ n, n < 32 ∧ (s.capture.fifo.length + n) % 32 = 0 ∧
        exec .captureStop s = .next (Roused s { s with
          bus.lastCode := 10
          bus.outcome := .accepted
          capture.state := .draining
          capture.assembler := none
          capture.fifo := s.capture.fifo ++ List.replicate n 0
          capture.pad := n })) ∧
    (∀ v, let w := s.bus.writeExt.toNat % 32 * 65536 + v.toNat
      s.capture.consumerPasses w = true → ({ s.capture with consumer := w } : Capture).demand = true →
      exec (.consumerWrite v) s = .next (Roused s { s with capture.consumer := w })) ∧
    (∀ point, s.ctrl.arrayState = .dozing → s.refresh.timer = some point → s.refresh.balance < 8 →
      s.refresh.urgentLevel ≤ s.refresh.balance + 1 →
      exec .refreshPeriodExpiry s = .next (Roused s { s with
        now := max s.now point
        refresh.timer := some (point + s.setup.working.get 10)
        refresh.balance := s.refresh.balance + 1 })) ∧
    (∀ v : Word, s.bus.paramSel = 24 → 1 ≤ v.toNat → v.toNat ≤ 8 →
      (v.toNat : Int) ≤ s.refresh.balance →
      exec (.refreshSettingWrite v) s = .next (Roused s { s with refresh.urgentLevel := v.toNat }))

/-- DOZE_IDLE_EXPIRY (R164 to R166), at the timer's point or at the present AC if that has passed (log
3): with work waiting, a balance above PULLIN_FLOOR or a procedure indicated, the timer restarts with a
full period of parameter 15; with none, the drain claim of a doze entry is raised and the timer stops.
WAKE_END (R169): in DOZING the array is READY, the path is free, the doze idle timer starts, and a
retain entry pending raises its drain claim; in SETTING and ALIGNING the procedure that woke the array
raises its drain claim, if no restore is due. -/
def Obligations.DozeBeginsWhenIdleAndEndsWithTheWake : Prop :=
  (∀ (s : State) (point : Nat), s.resetLow = false → s.ctrl.dozeTimer = some point →
    s.ctrl.progress = .idle →
    let t := max s.now point
    let quiet := s.pool.queued = [] ∧ s.pool.active = none ∧ s.capture.demand = false ∧
      s.refresh.balance ≤ s.refresh.pullinFloor ∧ s.ctrl.indication = .none
    (quiet → exec .dozeIdleExpiry s = .next { s with
      now := t, ctrl.dozeTimer := none, ctrl.progress := .draining .doze }) ∧
    (¬ quiet → exec .dozeIdleExpiry s = .next { s with
      now := t
      ctrl.dozeTimer :=
        if s.setup.working.get 15 = 0 then none else some (t + s.setup.working.get 15) })) ∧
  (∀ (s : State) (point : Nat), s.resetLow = false → s.ctrl.progress = .waking point →
    let t := max s.now point
    (s.ctrl.arrayState = .dozing → exec .wakeEnd s = .next { s with
      now := t
      ctrl.arrayState := .ready
      ctrl.dozeTimer :=
        if s.setup.working.get 15 = 0 then none else some (t + s.setup.working.get 15)
      ctrl.progress := if s.ctrl.indication = .retainPending then .draining .retain else .idle
      sched.job := none }) ∧
    (s.ctrl.arrayState = .setting → s.ctrl.restoreDue = false → exec .wakeEnd s = .next { s with
      now := t, ctrl.progress := .draining .setMode, sched.job := none }) ∧
    (s.ctrl.arrayState = .aligning → s.ctrl.restoreDue = false → exec .wakeEnd s = .next { s with
      now := t, ctrl.progress := .draining .align, sched.job := none }) ∧
    ((s.ctrl.arrayState = .setting ∨ s.ctrl.arrayState = .aligning) → s.ctrl.restoreDue = true →
      exec .wakeEnd s = .next { s with now := t, ctrl.progress := .idle, sched.job := none }))

/-- The windows of a bank expire, each at its point or at the present AC if that has passed (log 3):
OPEN_DELAY_EXPIRY moves it to OPEN (R61), CLOSE_TIME_EXPIRY to CLOSED (R64), and the three windows that
bar ROW_SHUT end (R58, R63); the row, the mark, the other windows and the other banks are left as they
are. A record burst job that waited for the open delay ends there if the record reads and its bank is
ready with the read hold in force (R89), and goes on otherwise.
The windows of the whole array expire (R59, R12, R151): OPEN_SPACING, MODE_HOLD, MODE_SETTLE, the
renew window, the read hold.
A procedure goes on by itself in the same step: with the last bank CLOSED its shut-all is over, and it
serves the urgent claim or comes to its own work (R149, R154, R166, R172); a SET_MODE with nothing to
load ends READY with the READY event once every bank is CLOSED and the three windows are over (R150),
and with the last bank CLOSED while one of them runs it comes to its own work and waits; a restore ends
READY with no event (R162). A window whose point has passed is over also before its own expiry is taken
(log 3). Where no procedure waits, or what it waits for has not all come, the window's end is all; what
a procedure does that waits for mode-settle is stated in `SettleExpiryEndsTheProcedure`. -/
def Obligations.WindowsExpireAtTheirPoints : Prop :=
  (∀ (s : State) (b : Fin 8) (point : Nat), s.resetLow = false →
    let e := s.bank b
    let n := max s.now point
    let after (x : Bank) : State :=
      { s with now := n, table.banks := s.table.banks.set b.val x b.isLt }
    let opened : State := after { e with state := .opened, openDelayEnd := none }
    let closed : State := after { e with state := .closed, closeTimeEnd := none }
    let lastOpen := ∀ c : Fin 8, c ≠ b → (s.bank c).state = .closed
    let ended (window : Option Nat) : Prop := ∀ p, window = some p → p ≤ n
    let allEnded :=
      ended s.table.renewWindow ∧ ended s.table.modeSettle ∧ ended s.table.modeHold
    (e.openDelayEnd = some point → s.sched.job ≠ some .recordBurst →
      exec (.openDelayExpiry b) s = .next opened) ∧
    (e.openDelayEnd = some point → s.sched.job = some .recordBurst →
      ∀ (a : Active) (x : Block), s.pool.active = some a →
        a.req.blockAt s.setup.workGeometry a.position = some x →
        let reads := a.req.kind = .read ∨ a.req.kind = .compare
        let held := ∃ p, s.ctrl.readHold = some p ∧ n < p
        let ready := (opened.bank x.bank).state = .opened ∧
          (opened.bank x.bank).openRow = some x.row ∧ (opened.bank x.bank).mark = false
        (reads ∧ held ∧ ready →
          exec (.openDelayExpiry b) s = .next { opened with sched.job := none }) ∧
        (¬ (reads ∧ held ∧ ready) → exec (.openDelayExpiry b) s = .next opened)) ∧
    (e.closeTimeEnd = some point →
      ((∀ d, s.ctrl.progress ≠ .shutAll d) → s.ctrl.progress ≠ .due .setMode →
        (∀ w, s.ctrl.progress ≠ .restoreShut w) → exec (.closeTimeExpiry b) s = .next closed) ∧
      ((∃ d, s.ctrl.progress = .shutAll d) ∨ (∃ w, s.ctrl.progress = .restoreShut w) → ¬ lastOpen →
        exec (.closeTimeExpiry b) s = .next closed) ∧
      (∀ d, s.ctrl.progress = .shutAll d → lastOpen →
        (s.refresh.urgentLevel ≤ s.refresh.balance → d ≠ .doze →
          exec (.closeTimeExpiry b) s = .next { closed with ctrl.progress := .renewing d }) ∧
        (s.refresh.balance < s.refresh.urgentLevel ∨ d = .doze →
          d ≠ .setMode ∨ s.ctrl.loadWords ≠ [] →
          exec (.closeTimeExpiry b) s = .next { closed with ctrl.progress := .due d }) ∧
        (s.refresh.balance < s.refresh.urgentLevel → d = .setMode → s.ctrl.loadWords = [] →
          (allEnded → exec (.closeTimeExpiry b) s = .next (ReadyFrom { closed with
            events.flags := s.events.flags ||| 0x40#8 })) ∧
          (¬ allEnded → exec (.closeTimeExpiry b) s = .next { closed with
            ctrl.progress := .due .setMode }))) ∧
      (∀ w, s.ctrl.progress = .restoreShut w → lastOpen → w = false ∨ ended s.table.modeSettle →
        exec (.closeTimeExpiry b) s = .next (ReadyFrom closed)) ∧
      (∀ p, s.ctrl.progress = .restoreShut true → lastOpen → s.table.modeSettle = some p → n < p →
        exec (.closeTimeExpiry b) s = .next closed)) ∧
    (e.minOpenEnd = some point →
      exec (.shutWindowExpiry b .minimumOpen) s = .next (after { e with minOpenEnd := none })) ∧
    (e.writeRecovery = .ends point →
      exec (.shutWindowExpiry b .writeRecovery) s =
        .next (after { e with writeRecovery := .expired })) ∧
    (e.readToShutEnd = some point →
      exec (.shutWindowExpiry b .readToShut) s = .next (after { e with readToShutEnd := none }))) ∧
  (∀ (s : State) (point : Nat), s.resetLow = false →
    let t := max s.now point
    let waits := (∃ d, s.ctrl.progress = .shutAll d) ∨
      (s.ctrl.progress = .due .setMode ∧ s.ctrl.loadWords = []) ∨
      ∃ w, s.ctrl.progress = .restoreShut w
    let nothingToLoad := s.ctrl.progress = .due .setMode ∧ s.ctrl.loadWords = [] ∧
      s.allClosed = true
    let runs (window : Option Nat) : Prop := ∃ p, window = some p ∧ t < p
    let ended (window : Option Nat) : Prop := ∀ p, window = some p → p ≤ t
    let holdOver : State := { s with now := t, table.modeHold := none }
    let settleOver : State := { s with now := t, table.modeSettle := none }
    let renewOver : State := { s with now := t, table.renewWindow := none }
    let setModeEnds (u : State) : State :=
      ReadyFrom { u with events.flags := s.events.flags ||| 0x40#8 }
    (s.table.openSpacing = some point →
      exec .openSpacingExpiry s = .next { s with now := t, table.openSpacing := none }) ∧
    (s.ctrl.readHold = some point →
      exec .readHoldExpiry s = .next { s with now := t, ctrl.readHold := none }) ∧
    (¬ waits ∨ s.allClosed = false →
      (s.table.modeHold = some point → exec .modeHoldExpiry s = .next holdOver) ∧
      (s.table.modeSettle = some point →
        s.ctrl.progress ∉ [.loading, .suspendSettle, .suspendResume, .endSettle, .exitSettle] →
        exec .modeSettleExpiry s = .next settleOver) ∧
      (s.table.renewWindow = some point → exec .renewCompletion s = .next renewOver)) ∧
    (nothingToLoad →
      (s.table.modeHold = some point → runs s.table.renewWindow ∨ runs s.table.modeSettle →
        exec .modeHoldExpiry s = .next holdOver) ∧
      (s.table.modeSettle = some point → runs s.table.renewWindow ∨ runs s.table.modeHold →
        exec .modeSettleExpiry s = .next settleOver) ∧
      (s.table.renewWindow = some point → runs s.table.modeHold ∨ runs s.table.modeSettle →
        exec .renewCompletion s = .next renewOver)) ∧
    (nothingToLoad →
      (s.table.modeHold = some point → ended s.table.renewWindow → ended s.table.modeSettle →
        exec .modeHoldExpiry s = .next (setModeEnds holdOver)) ∧
      (s.table.modeSettle = some point → ended s.table.renewWindow → ended s.table.modeHold →
        exec .modeSettleExpiry s = .next (setModeEnds settleOver)) ∧
      (s.table.renewWindow = some point → ended s.table.modeHold → ended s.table.modeSettle →
        exec .renewCompletion s = .next (setModeEnds renewOver))) ∧
    (s.ctrl.progress = .restoreShut true → s.allClosed = true →
      (s.table.modeSettle = some point → exec .modeSettleExpiry s = .next (ReadyFrom settleOver)) ∧
      (s.table.modeHold = some point →
        (runs s.table.modeSettle → exec .modeHoldExpiry s = .next holdOver) ∧
        (ended s.table.modeSettle → exec .modeHoldExpiry s = .next (ReadyFrom holdOver))) ∧
      (s.table.renewWindow = some point →
        (runs s.table.modeSettle → exec .renewCompletion s = .next renewOver) ∧
        (ended s.table.modeSettle → exec .renewCompletion s = .next (ReadyFrom renewOver)))))

/-! ### Start-up, procedures, retain -/

/-- The phases of STARTING (R141 to R143), each ended at its point or at the present AC if that has
passed (log 3): each expiry begins the next phase with its length; at the
end of SETTLE the working set is loaded and M1 is loaded with align mode clear, M2, M3 and M0 being
still to load; at the end of LOCK the array is READY with balance 0, a full refresh period and the
READY event, or an alignment begins under AUTO_ALIGN. -/
def Obligations.StartUpPhasesFollowOneAnother : Prop :=
  ∀ (s : State) (point : Nat), s.resetLow = false →
    let n := max s.now point
    (s.ctrl.progress = .resetHold point → exec .resetHoldExpiry s = .next { s with
      now := n
      ctrl.arrayReset := false
      ctrl.progress := .wakePhase (n + s.setup.host.get 17 * 1024) }) ∧
    (s.ctrl.progress = .wakePhase point → exec .wakePhaseExpiry s = .next { s with
      now := n
      ctrl.clockEnable := true
      ctrl.progress := .settlePhase (n + s.setup.host.get 18) }) ∧
    (s.ctrl.progress = .settlePhase point → s.ctrl.arrayState = .starting →
      ∃ w : Vector Nat 16, (∀ i : Fin 16, w.get i = s.setup.host.get (i.castLE (by decide))) ∧
        exec .settlePhaseExpiry s = .next { s with
          now := n
          port := some ⟨.modeLoad 1 (s.ctrl.loadImage.get 1 &&& 0xFF7F#16), n⟩
          setup.working := w
          ctrl.progress := .loading
          ctrl.loadWords := [2, 3, 0]
          ctrl.copies := s.ctrl.copies.set 1 (some (s.ctrl.loadImage.get 1 &&& 0xFF7F#16))
          table.modeHold := some (n + w.get 7)
          table.modeSettle := some (n + w.get 8) }) ∧
    (s.ctrl.progress = .lockPhase point → s.ctrl.autoAlign = false →
      exec .lockPhaseExpiry s = .next (ReadyFrom { s with
        now := n
        refresh.balance := 0
        refresh.timer := some (n + s.setup.working.get 10)
        events.flags := s.events.flags ||| 0x40#8 })) ∧
    (s.ctrl.progress = .lockPhase point → s.ctrl.autoAlign = true →
      exec .lockPhaseExpiry s = .next { s with
        now := n
        ctrl.progress := .due .align
        ctrl.lanes := #v[⟨.none, none, [], true⟩, ⟨.none, none, [], true⟩]
        ctrl.interruptions := 0
        ctrl.nextTap := 0 })

/-- The mode-settle window of the last load, at its point or at the present AC if that has passed (log
3), ends the work that waits for it (R142, R150, R157, R175):
in STARTING the LOCK phase begins; SET_MODE ends READY with the READY event; an alignment in ALIGNING
ends READY with ALIGN_DONE, and in STARTING it ends the start-up with both events, balance 0 and a full
refresh period (R143); a retain exit ends READY with the READY event and a restarted refresh period.
While words are left to load, and before a first probe, the window's end is all. A suspension (R158)
comes to its RENEWs when the load that clears align mode has settled, and when the one that sets it has
settled it counts an interruption, at most 255, and the alignment goes on, or is suspended anew by a
standing urgent claim. -/
def Obligations.SettleExpiryEndsTheProcedure : Prop :=
  ∀ (s : State) (point : Nat), s.resetLow = false → s.table.modeSettle = some point →
    let n := max s.now point
    (s.ctrl.progress = .loading → s.ctrl.loadWords = [] → s.ctrl.arrayState = .starting →
      exec .modeSettleExpiry s = .next { s with
        now := n
        table.modeSettle := none
        ctrl.progress := .lockPhase (n + s.setup.working.get 9) }) ∧
    (s.ctrl.progress = .loading → s.ctrl.loadWords = [] → s.ctrl.arrayState = .setting →
      exec .modeSettleExpiry s = .next (ReadyFrom { s with
        now := n, table.modeSettle := none, events.flags := s.events.flags ||| 0x40#8 })) ∧
    (s.ctrl.progress = .loading ∧ s.ctrl.loadWords ≠ [] ∨ s.ctrl.progress = .probing →
      exec .modeSettleExpiry s = .next { s with now := n, table.modeSettle := none }) ∧
    (s.ctrl.progress = .endSettle → s.ctrl.arrayState = .aligning →
      exec .modeSettleExpiry s = .next (ReadyFrom { s with
        now := n, table.modeSettle := none, events.flags := s.events.flags ||| 0x20#8 })) ∧
    (s.ctrl.progress = .endSettle → s.ctrl.arrayState = .starting →
      exec .modeSettleExpiry s = .next (ReadyFrom { s with
        now := n
        table.modeSettle := none
        refresh.balance := 0
        refresh.timer := some (n + s.setup.working.get 10)
        events.flags := s.events.flags ||| 0x60#8 })) ∧
    (s.ctrl.progress = .exitSettle →
      exec .modeSettleExpiry s = .next (ReadyFrom { s with
        now := n
        table.modeSettle := none
        refresh.timer := some (n + s.setup.working.get 10)
        events.flags := s.events.flags ||| 0x40#8 })) ∧
    (s.ctrl.progress = .suspendSettle →
      exec .modeSettleExpiry s = .next { s with
        now := n
        table.modeSettle := none
        ctrl.progress := if 0 < s.refresh.balance then .suspendRenew else .suspendSet }) ∧
    (s.ctrl.progress = .suspendResume → s.ctrl.arrayState = .aligning → s.ctrl.probe = none →
      exec .modeSettleExpiry s = .next { s with
        now := n
        table.modeSettle := none
        ctrl.interruptions := min 255 (s.ctrl.interruptions + 1)
        ctrl.progress :=
          if s.refresh.urgentLevel ≤ s.refresh.balance then .suspendClear else .probing })

/-- RETAIN_MIN_EXPIRY only ends the window, or with an exit held begins it (R174): the pending divisor
is compared and applied, RETAIN_OUT is issued at once, at the first AC at which the command lines are
free (log 23), clock enable rises, and the sequence holds the path until RETAIN_EXIT_TIME, parameter
13, has passed (steps 1 and 2 of R175). RETAIN_EXIT_TIME_EXPIRY returns the array to READY when the
divisor has not changed; when it has, M0 is loaded with lock restart set (at the expiry: log 32), and
the read hold and the two mode windows run from that load (R175). A load that must wait for a running
mode-hold window is due and not yet issued (log 32); `ModeLoadSetsTheArrayCopy` states its issue. Each
expiry is taken at its point or at the present AC if that has passed (log 3). -/
def Obligations.RetainWindowsExpire : Prop :=
  ∀ (s : State) (point : Nat), s.resetLow = false →
    let n := max s.now point
    (s.ctrl.retainMin = some point → s.ctrl.exitHeld = false →
      exec .retainMinExpiry s = .next { s with now := n, ctrl.retainMin := none }) ∧
    (s.ctrl.retainMin = some point → s.ctrl.exitHeld = true →
      let p := ({ s with now := n } : State).issuePoint
      exec .retainMinExpiry s = .next { s with
        now := p
        port := some ⟨.retainOut, p⟩
        setup.appliedDiv := some s.setup.pendingDiv
        ctrl.clockEnable := true
        ctrl.exitHeld := false
        ctrl.retainMin := none
        ctrl.dozeTimer := DozeTimerAfter s p
        ctrl.progress := .exitTime (p + s.setup.working.get 13)
          (decide (s.setup.appliedDiv ≠ some s.setup.pendingDiv))
        sched.job := some .procedure }) ∧
    (s.ctrl.progress = .exitTime point false →
      exec .retainExitTimeExpiry s = .next (ReadyFrom { s with
        now := n
        refresh.timer := some (n + s.setup.working.get 10)
        events.flags := s.events.flags ||| 0x40#8 })) ∧
    (∀ m0 : Word, s.ctrl.progress = .exitTime point true → s.ctrl.arrayState = .retaining →
      s.ctrl.copies.get 0 = some m0 → s.sched.job = some .procedure → s.allClosed = true →
      (∀ p, s.table.modeHold = some p → p ≤ n) →
      exec .retainExitTimeExpiry s = .next { s with
        now := n
        port := some ⟨.modeLoad 0 (m0 ||| 0x0100#16), n⟩
        ctrl.copies := s.ctrl.copies.set 0 (some (m0 &&& 0xFEFF#16))
        ctrl.shadows := s.ctrl.shadows.set 0 (s.ctrl.shadows.get 0 &&& 0xFEFF#16)
        ctrl.readHold := some (n + s.setup.working.get 9)
        ctrl.progress := .exitSettle
        table.modeHold := some (n + s.setup.working.get 7)
        table.modeSettle := some (n + s.setup.working.get 8) }) ∧
    (∀ p, s.ctrl.progress = .exitTime point true → s.table.modeHold = some p → n < p →
      exec .retainExitTimeExpiry s = .next { s with now := n, ctrl.progress := .exitLoad })

/-- STROBE_PROBE (R14, R155), at the first AC at which the command lines are free (log 3): issued for
the alignment that holds the path when the array is in align mode, no probe is in flight, the
mode-settle window has passed, no read hold is in force, no urgent claim stands, or the probe is due at
the completion of the one before (R163), and no data interval is open; a searching lane is driven at
the tap under test, any other at its working delay, and the probe is in flight for PROBE_TIME.
STROBE_PROBE_COMPLETION (R155 to R157), at its point or at the present AC if that has passed (log 3):
each searching lane takes its sample into its trace and is decided: at a tap from 1 up with sample 1
after sample 0 it is LOCKED there and its delay becomes the tap; otherwise it is FAILED at tap 63 and
goes on searching below it. A lane that is not searching keeps all. With no lane searching any longer
the load that clears align mode is due. While one is, the next probe is due at once when nothing stands
in its way (R155), and a standing urgent claim suspends an ALIGN (R158). Nothing outside the alignment
changes. -/
def Obligations.StrobeProbesTestTheTaps : Prop :=
  (∀ (s : State) (m1 : Word), s.resetLow = false → s.sched.job = some .procedure →
    s.ctrl.progress = .probing ∧ s.refresh.balance < s.refresh.urgentLevel ∨
      s.ctrl.progress = .probeDue →
    s.ctrl.copies.get 1 = some m1 → m1.getLsbD 7 = true →
    s.ctrl.probe = none → s.table.modeSettle = none → s.ctrl.readHold = none →
    s.sched.lastReadEnd ≤ s.now →
    s.sched.lastWriteEnd ≤ s.now → s.ctrl.arrayState ≠ .ready →
    let p := s.issuePoint
    let driven (lane : Fin 2) : BitVec 6 :=
      if (s.ctrl.lanes.get lane).searching then BitVec.ofNat 6 s.ctrl.nextTap
      else s.ctrl.delays.get lane
    exec .strobeProbe s = .next { s with
      now := p
      port := some ⟨.strobeProbe, p⟩
      ctrl.progress := .probing
      ctrl.probe := some ⟨p + s.setup.working.get 14, s.ctrl.nextTap, #v[driven 0, driven 1]⟩ }) ∧
  (∀ (s : State) (p : Probe) (v0 v1 : Bool), s.resetLow = false → s.ctrl.probe = some p →
    ∃ t, exec (.strobeProbeCompletion v0 v1) s = .next t ∧
      t = { s with
        now := max s.now p.point
        ctrl := { s.ctrl with
          lanes := t.ctrl.lanes
          delays := t.ctrl.delays
          nextTap := p.tap + 1
          probe := none
          progress := t.ctrl.progress } } ∧
      (∀ lane : Fin 2,
        let v := if lane = 0 then v0 else v1
        let old := s.ctrl.lanes.get lane
        let new := t.ctrl.lanes.get lane
        (old.searching = false → new = old ∧ t.ctrl.delays.get lane = s.ctrl.delays.get lane) ∧
        (old.searching = true → new.trace = old.trace ++ [v]) ∧
        (old.searching = true → 1 ≤ p.tap → v = true → old.trace.getLast? = some false →
          new.outcome = .locked ∧ new.lockTap = some p.tap ∧ new.searching = false ∧
          t.ctrl.delays.get lane = BitVec.ofNat 6 p.tap) ∧
        (old.searching = true → old.outcome = .none →
          ¬ (1 ≤ p.tap ∧ v = true ∧ old.trace.getLast? = some false) →
          t.ctrl.delays.get lane = s.ctrl.delays.get lane) ∧
        (old.searching = true → 63 ≤ p.tap → ¬ (v = true ∧ old.trace.getLast? = some false) →
          new.outcome = .failed ∧ new.lockTap = none ∧ new.searching = false) ∧
        (old.searching = true → p.tap < 63 →
          ¬ (1 ≤ p.tap ∧ v = true ∧ old.trace.getLast? = some false) →
          new.searching = true ∧ new.outcome = old.outcome)) ∧
      (t.ctrl.searching = false → t.ctrl.progress = .endClear) ∧
      (t.ctrl.searching = true → s.ctrl.progress = .probing →
        (s.refresh.urgentLevel ≤ s.refresh.balance → s.ctrl.arrayState = .aligning →
          t.ctrl.progress = .suspendClear) ∧
        (∀ m1 : Word, s.refresh.balance < s.refresh.urgentLevel → s.sched.job = some .procedure →
          s.ctrl.copies.get 1 = some m1 → m1.getLsbD 7 = true → s.table.modeSettle = none →
          s.ctrl.readHold = none → s.sched.lastReadEnd ≤ s.now → s.sched.lastWriteEnd ≤ s.now →
          t.ctrl.progress = .probeDue)))

/-! ### Bursts and their completions -/

/-- The blocks of a request (R2 to R6). From every position of a request there is a block that begins
there, in the bank and row of that word. Its base is the position's column `p` rounded down to a
multiple of 4; it is a burst of 8 if the base is a multiple of 8 and the last requested word of the
segment lies at column base + 4 or beyond, and a chopped burst of 4 otherwise (R4). The words it
carries are all the requested words of its segment from the position to its end, at least one, all in
its bank and row, and it ends the segment exactly when the request ends with it or goes on at column 0
of another row. From a position that is a multiple of 4, a request whose address and length are
multiples of 4, as a WRITE's and a FILL's are, has a block that begins at the position, carries a
requested word with every word of it, and so lies wholly in the request (R6). -/
def Obligations.BlocksCoverTheRequest : Prop :=
  ∀ (r : Request) (g : Geometry) (position : Nat), g.allowed →
    position < r.length →
    let p := columnOf g (r.address + position)
    let last := p + min (r.length - position) (g.cols - p) - 1
    ∃ x, r.blockAt g position = some x ∧ x.first = position ∧
      x.bank = bankOf g (r.address + position) ∧ x.row = rowOf g (r.address + position) ∧
      x.column = p - p % 4 ∧
      x.length = (if x.column % 8 = 0 ∧ x.column + 4 ≤ last then 8 else 4) ∧
      x.column + x.length ≤ g.cols ∧
      x.base = x.row * (8 * g.cols) + x.bank.val * g.cols + x.column ∧
      x.base ≤ r.address + position ∧ 0 < x.count ∧ position + x.count ≤ r.length ∧
      (∀ i, position ≤ i → i < r.length →
        (r.address + i < x.base + x.length ↔ i < position + x.count)) ∧
      (∀ k, k < x.count → bankOf g (r.address + position + k) = x.bank ∧
        rowOf g (r.address + position + k) = x.row) ∧
      (x.endsSegment = true ↔ position + x.count = r.length ∨
        columnOf g (r.address + position + x.count) = 0) ∧
      (r.address % 4 = 0 → r.length % 4 = 0 → position % 4 = 0 →
        x.base = r.address + position ∧ x.count = x.length ∧
        x.base + x.length ≤ r.address + r.length)

/-- READ_BURST (R9, R11, R62, R89): the ACTIVE READ's or COMPARE's burst job issues its block at the
first AC at which the command lines are free and the data follow the last read data, and the last write
data by 2 AC (logs 3 and 20); the bank's read-to-shut end runs from the issue, the burst is in flight
until its last word, the position moves on, and the job ends. -/
def Obligations.ReadBurstIsIssuedForTheActiveRecord : Prop :=
  ∀ (s : State) (a : Active) (x : Block) (m0 : Word), s.resetLow = false →
    s.sched.job = some .recordBurst → s.pool.active = some a → a.aborting = false →
    a.req.kind = .read ∨ a.req.kind = .compare →
    a.req.blockAt s.setup.workGeometry a.position = some x →
    (s.bank x.bank).state = .opened → (s.bank x.bank).openRow = some x.row →
    (s.bank x.bank).mark = false → s.table.modeSettle = none → s.ctrl.inAlignMode = false →
    s.ctrl.readHold = none → s.ctrl.copies.get 0 = some m0 →
    let l := m0.toNat % 16
    ∃ n t, exec .readBurst s = .next t ∧ s.issuePoint ≤ n ∧ s.sched.lastReadEnd ≤ n + l ∧
      s.sched.lastWriteEnd + 2 ≤ n + l ∧
      (n = s.issuePoint ∨ n + l = s.sched.lastReadEnd ∨ n + l = s.sched.lastWriteEnd + 2) ∧
      t = { s with
        now := n
        port := some ⟨.readBurst x.bank x.column x.length, n⟩
        ctrl.dozeTimer := DozeTimerAfter s n
        table.banks := s.table.banks.set x.bank.val
          { s.bank x.bank with readToShutEnd := some (n + s.setup.working.get 4) } x.bank.isLt
        pool.active := t.pool.active
        sched := { s.sched with
          job := none
          inFlight := s.sched.inFlight ++ [⟨false, .record, x.bank, x.row, x.base, x.length, [],
            x.first, x.count, x.endsSegment, n + l + x.length / 2, s.ctrl.delays⟩]
          lastReadEnd := n + l + x.length / 2 } } ∧
      t.pool.active = some { a with
        position := a.position + x.count
        segment :=
          if x.endsSegment = true ∧ a.segment = 0 ∧ s.setup.workGeometry.cols -
              columnOf s.setup.workGeometry a.req.address < a.req.length then 1
          else a.segment }

/-- WRITE_BURST (R10, R11, R53, R55, R62, R89): the ACTIVE WRITE's or FILL's burst job issues its block
at the first AC at which the command lines are free and the data follow the last write data, and the
last read data by 1 AC (logs 3 and 20). Its data are the span words of the block or the pattern; the
bank's write recovery is pending, the position moves on, and the job ends. -/
def Obligations.WriteBurstIsIssuedForTheActiveRecord : Prop :=
  ∀ (s : State) (a : Active) (x : Block) (m2 : Word) (data : List Word), s.resetLow = false →
    s.sched.job = some .recordBurst → s.pool.active = some a → a.aborting = false →
    (∃ slot, a.req.kind = .write ∧ a.req.slot = some slot ∧ data = (List.range x.length).map
        fun k => s.staging.word (slot * 64 + (x.base + k - a.req.address))) ∨
      (∃ v, a.req.kind = .fill ∧ a.req.pattern = some v ∧ data = List.replicate x.length v) →
    a.req.blockAt s.setup.workGeometry a.position = some x →
    (s.bank x.bank).state = .opened → (s.bank x.bank).openRow = some x.row →
    (s.bank x.bank).mark = false → s.table.modeSettle = none → s.ctrl.inAlignMode = false →
    s.ctrl.copies.get 2 = some m2 →
    let w := m2.toNat % 16
    ∃ n t, exec .writeBurst s = .next t ∧ s.issuePoint ≤ n ∧ s.sched.lastWriteEnd ≤ n + w ∧
      s.sched.lastReadEnd + 1 ≤ n + w ∧
      (n = s.issuePoint ∨ n + w = s.sched.lastWriteEnd ∨ n + w = s.sched.lastReadEnd + 1) ∧
      t = { s with
        now := n
        port := some ⟨.writeBurst x.bank x.column x.length, n⟩
        ctrl.dozeTimer := DozeTimerAfter s n
        table.banks := s.table.banks.set x.bank.val
          { s.bank x.bank with writeRecovery := .pending } x.bank.isLt
        pool.active := t.pool.active
        sched := { s.sched with
          job := none
          inFlight := s.sched.inFlight ++ [⟨true, .record, x.bank, x.row, x.base, x.length, data,
            x.first, x.count, x.endsSegment, n + w + x.length / 2, s.ctrl.delays⟩]
          lastWriteEnd := n + w + x.length / 2 } } ∧
      t.pool.active = some { a with
        position := a.position + x.count
        segment :=
          if x.endsSegment = true ∧ a.segment = 0 ∧ s.setup.workGeometry.cols -
              columnOf s.setup.workGeometry a.req.address < a.req.length then 1
          else a.segment }

/-- A chunk's WRITE_BURSTs (R126, R127), each issued at the first AC at which the command lines are
free and the data follow the last write data, and the last read data by 1 AC (R7, R11, logs 3 and 20):
burst j of the chunk takes the FIFO words 8j to 8j + 7 to the ring address plus 8j, the bank's write
recovery is pending (R58), and in READY the doze idle timer restarts (R164). The first three leave FIFO
and offsets as they are; at the fourth, 32 words leave the FIFO, the producer advances by 32 round the
ring, MARK is set if it meets the mark offset, a draining run with an empty FIFO ends with STOPPED, and
the job ends. Nothing else changes. -/
def Obligations.ChunkWritesFourBurstsAndAdvances : Prop :=
  ∀ (s : State) (j : Nat) (m2 : Word), s.resetLow = false → s.sched.job = some (.chunk j) → j ≤ 3 →
    let g := s.setup.workGeometry
    let address := s.capture.base.toNat + s.capture.producer
    let b := bankOf g address
    let w := m2.toNat % 16
    (s.bank b).state = .opened → (s.bank b).openRow = some (rowOf g address) →
    (s.bank b).mark = false → (∀ p, s.table.modeSettle = some p → p ≤ s.now) →
    s.ctrl.inAlignMode = false →
    s.ctrl.copies.get 2 = some m2 →
    ∃ n t, exec .writeBurst s = .next t ∧ s.issuePoint ≤ n ∧
      s.sched.lastWriteEnd ≤ n + w ∧ s.sched.lastReadEnd + 1 ≤ n + w ∧
      (n = s.issuePoint ∨ n + w = s.sched.lastWriteEnd ∨ n + w = s.sched.lastReadEnd + 1) ∧
      t = { s with
        now := n
        port := some ⟨.writeBurst b (columnOf g address + 8 * j) 8, n⟩
        ctrl.dozeTimer := DozeTimerAfter s n
        table.banks := s.table.banks.set b.val
          { s.bank b with writeRecovery := .pending } b.isLt
        capture := t.capture
        events := t.events
        sched := { s.sched with
          job := t.sched.job
          inFlight := s.sched.inFlight ++ [⟨true, .chunk (decide (j = 3)), b, rowOf g address,
            address + 8 * j, 8, (s.capture.fifo.drop (8 * j)).take 8, 8 * j, 8, decide (j = 3),
            n + w + 4, s.ctrl.delays⟩]
          lastWriteEnd := n + w + 4 } } ∧
      (j < 3 → t.capture = s.capture ∧ t.events = s.events ∧ t.sched.job = some (.chunk (j + 1))) ∧
      (j = 3 →
        let producer := (s.capture.producer + 32) % (s.capture.size.toNat * 32)
        let ended := s.capture.state = .draining ∧ s.capture.fifo.length ≤ 32
        t.sched.job = none ∧
        t.capture = { s.capture with
          fifo := s.capture.fifo.drop 32
          producer := producer
          state := if ended then .idle else s.capture.state } ∧
        t.events = { s.events with
          flags := s.events.flags ||| (if producer = s.capture.mark.toNat then 0x02#8 else 0) |||
            (if ended then 0x08#8 else 0) })

/-- READ_BURST_COMPLETION for a READ (R9, R52, R90, R92, R97), at the completion point or at the
present AC if that has passed (log 3): the requested words of the block, and no other, are stored in
the span; a word is the one the burst had captured if the array's contents have been lost since, or
else the one the array holds at the completion (log 33). Words done grows by their number. The record's
last completion makes it DONE, or ABORTED if it is being aborted, with suspect from the retention-lost
flag (R33); its slots return to HOST (R45) and COMPLETION is set if it asked for it (R39). Before that
the row is decided (R71, R72). While a SOFT_RESET is pending no completion finishes the record, which
stays ACTIVE, its slots LENT, until the reset frees it (R41, R46). -/
def Obligations.ReadCompletionStoresTheRequestedWords : Prop :=
  ∀ (s : State) (a : Active) (x : Burst) (rest : List Burst) (slot : Nat), s.resetLow = false →
    s.sched.inFlight = x :: rest → x.isWrite = false → s.pool.active = some a →
    a.req.kind = .read → a.req.slot = some slot →
    let word (address : Nat) : Word := (x.data[address - x.base]?).getD (s.array.word address)
    let wordsDone := a.wordsDone + x.count
    ∃ t, exec .readBurstCompletion s = .next t ∧ t.now = max s.now x.done ∧
      t.sched = { s.sched with inFlight := rest } ∧ t.array = s.array ∧ t.refresh = s.refresh ∧
      t.capture = s.capture ∧ t.ctrl = s.ctrl ∧ t.setup = s.setup ∧ t.bus = s.bus ∧
      t.port = s.port ∧
      (∀ w, t.staging.word w =
        if slot * 64 + x.first ≤ w ∧ w < slot * 64 + x.first + x.count then
          word (a.req.address + (w - slot * 64))
        else s.staging.word w) ∧
      RowDecided s t x.bank x.row (SegmentShuts s a x) (s.bank x.bank) ∧
      let last := (a.aborting = true ∨ a.req.length ≤ a.position) ∧
        (¬ ∃ y, y ∈ rest ∧ y.user = .record) ∧ s.bus.softPending = false
      (last → RecordFinished s t a.req ⟨a.req.tag, .read, a.seq,
        if a.aborting = true then .aborted else .done, wordsDone, some s.refresh.retentionLost,
        none⟩) ∧
      (¬ last → t.pool = { s.pool with active := some { a with wordsDone := wordsDone } } ∧
        t.staging.owner = s.staging.owner ∧ t.events = s.events)

/-- READ_BURST_COMPLETION for a COMPARE (R54, R90, R92, R34, R97), at the completion point or at the
present AC if that has passed (log 3): no word of the buffer or the array changes; the tally grows by
the number of requested words, as the burst captured them (log 33), that differ from their span words,
and its first offset, once set, stays, or else is the lowest differing one; the last completion fixes
MISMATCH with both, or DONE with neither, or ABORTED with neither if the record is being aborted. Its
slots return to HOST (R45) and COMPLETION is set if it asked for it (R39). Before that the row is
decided (R71, R72). While a SOFT_RESET is pending no completion finishes the record, which stays
ACTIVE, its slots LENT, until the reset frees it (R41, R46). -/
def Obligations.CompareCompletionCountsTheDifferences : Prop :=
  ∀ (s : State) (a : Active) (x : Burst) (rest : List Burst) (slot : Nat), s.resetLow = false →
    s.sched.inFlight = x :: rest → x.isWrite = false → s.pool.active = some a →
    a.req.kind = .compare → a.req.slot = some slot →
    let word (address : Nat) : Word := (x.data[address - x.base]?).getD (s.array.word address)
    let differs (k : Nat) : Bool := decide
      (word (a.req.address + (x.first + k)) ≠ s.staging.word (slot * 64 + (x.first + k)))
    let found := (List.range x.count).filter differs
    let count := a.tally.count + found.length
    let first := match a.tally.first with
      | some i => some i
      | none => found.head?.map fun k => x.first + k
    let wordsDone := a.wordsDone + x.count
    ∃ t, exec .readBurstCompletion s = .next t ∧ t.now = max s.now x.done ∧
      t.sched = { s.sched with inFlight := rest } ∧ t.array = s.array ∧ t.refresh = s.refresh ∧
      t.capture = s.capture ∧ t.ctrl = s.ctrl ∧ t.setup = s.setup ∧ t.bus = s.bus ∧
      t.port = s.port ∧ t.staging.words = s.staging.words ∧
      t.staging.epoch = s.staging.epoch ∧
      RowDecided s t x.bank x.row (SegmentShuts s a x) (s.bank x.bank) ∧
      let last := (a.aborting = true ∨ a.req.length ≤ a.position) ∧
        (¬ ∃ y, y ∈ rest ∧ y.user = .record) ∧ s.bus.softPending = false
      (last → a.aborting = true → RecordFinished s t a.req ⟨a.req.tag, .compare, a.seq, .aborted,
        wordsDone, some s.refresh.retentionLost, none⟩) ∧
      (last → a.aborting = false → RecordFinished s t a.req (match first with
        | some i => ⟨a.req.tag, .compare, a.seq, .mismatch, wordsDone,
            some s.refresh.retentionLost, some (i, count)⟩
        | none => ⟨a.req.tag, .compare, a.seq, .done, wordsDone,
            some s.refresh.retentionLost, none⟩)) ∧
      (¬ last → t.pool = { s.pool with
          active := some { a with wordsDone := wordsDone, tally := ⟨count, first⟩ } } ∧
        t.staging.owner = s.staging.owner ∧ t.events = s.events)

/-- WRITE_BURST_COMPLETION (R10, R18, R58, R90, R92, R97), at the completion point or at the present AC
if that has passed (log 3): the burst's words, and no other, are in the array; the bank's write
recovery runs from the completion, or stays pending while a later write to the bank is in flight; a
record's words done grows by the burst's words, and its last completion makes it DONE, or ABORTED if it
is being aborted, returns its slots (R45) and sets COMPLETION if it asked for it (R39); before that the
row is decided (R71, R72). While a SOFT_RESET is pending no completion finishes the record, which stays
ACTIVE, its slots LENT, until the reset frees it (R41, R46). A chunk's completion touches no record
(R128); its fourth decides the chunk's row (R73), with the next chunk position taken from the producer
offset as it stands at the completion (the model's reading, log 31). -/
def Obligations.WriteCompletionPutsTheWordsInTheArray : Prop :=
  ∀ (s : State) (x : Burst) (rest : List Burst), s.resetLow = false →
    s.sched.inFlight = x :: rest → x.isWrite = true →
    let recovery : WriteRecovery :=
      if ∃ y, y ∈ rest ∧ y.isWrite = true ∧ y.bank = x.bank then .pending
      else .ends (max s.now x.done + s.setup.working.get 3)
    let e := { s.bank x.bank with writeRecovery := recovery }
    ∃ t, exec .writeBurstCompletion s = .next t ∧ t.now = max s.now x.done ∧
      t.sched = { s.sched with inFlight := rest } ∧ t.capture = s.capture ∧ t.ctrl = s.ctrl ∧
      t.refresh = s.refresh ∧ t.setup = s.setup ∧ t.bus = s.bus ∧ t.port = s.port ∧
      (∀ w, t.array.word w =
        if x.base ≤ w ∧ w < x.base + x.data.length then x.data.getD (w - x.base) 0
        else s.array.word w) ∧
      (t.bank x.bank).writeRecovery = recovery ∧
      (∀ l, x.user = .chunk l → t.pool = s.pool ∧ t.staging = s.staging ∧ t.events = s.events ∧
        RowDecided s t x.bank x.row (l = true ∧ ChunkShuts s x) e) ∧
      (∀ a, x.user = .record → s.pool.active = some a → a.req.kind = .write ∨ a.req.kind = .fill →
        let last := (a.aborting = true ∨ a.req.length ≤ a.position) ∧
          (¬ ∃ y, y ∈ rest ∧ y.user = .record) ∧ s.bus.softPending = false
        t.staging.words = s.staging.words ∧
        RowDecided s t x.bank x.row (SegmentShuts s a x) e ∧
        (last → RecordFinished s t a.req ⟨a.req.tag, a.req.kind, a.seq,
          if a.aborting = true then .aborted else .done, a.wordsDone + x.count, none, none⟩) ∧
        (¬ last → t.pool = { s.pool with
          active := some { a with wordsDone := a.wordsDone + x.count } } ∧
          t.staging = s.staging ∧ t.events = s.events))

/-! ### Grants and the operations of the jobs -/

/-- The arbiter is open and no claim above the shut claims stands: no job, no SOFT_RESET pending, no
restore due, an array state in which jobs are granted (R83), a balance below URGENT_LEVEL (R107), no
urgent chunk (R125). -/
def Sys2Proof.Machine.PathFree (s : State) : Prop :=
  s.resetLow = false ∧ s.sched.job = none ∧ s.bus.softPending = false ∧
  s.ctrl.restoreDue = false ∧ s.ctrl.arrayState ∈ [.ready, .setting, .aligning] ∧
  s.refresh.balance < s.refresh.urgentLevel ∧
  ¬ (s.capture.demand = true ∧ 128 ≤ s.capture.fifo.length)

/-- ROW_SHUT of the bank may be issued (R63): it is OPEN, and its three windows and the mode-settle
window have expired. -/
def Sys2Proof.Machine.MayShut (s : State) (b : Fin 8) : Prop :=
  (s.bank b).state = .opened ∧
  (∀ p, (s.bank b).minOpenEnd = some p → p ≤ s.now) ∧
  (∀ p, (s.bank b).readToShutEnd = some p → p ≤ s.now) ∧
  (s.bank b).writeRecovery ≠ .pending ∧
  (∀ p, (s.bank b).writeRecovery = .ends p → p ≤ s.now) ∧
  (∀ p, s.table.modeSettle = some p → p ≤ s.now)

/-- A shut claim stands for the bank (R68): it is marked, and its ROW_SHUT may be issued. -/
def Sys2Proof.Machine.ShutClaimed (s : State) (b : Fin 8) : Prop :=
  (s.bank b).mark = true ∧ MayShut s b

/-- When the arbiter is open, the one grant it makes is the first claim of the order of R80; when it
is not, it makes none but the restore's (R101, R162). So at most one grant stands at any moment. -/
def Obligations.ArbiterGrantsTheFirstClaimOfTheOrder : Prop :=
  ∀ s : State,
    (s.arbiterOpen = true → s.grantsDue =
      if s.refresh.urgentLevel ≤ s.refresh.balance then [.urgentRefreshGrant]
      else if s.capture.demand = true ∧ 128 ≤ s.capture.fifo.length then [.captureChunkGrant]
      else if s.drainClaim = true ∧ s.pool.active = none then [.drainGrant]
      else if s.shutClaim ≠ none then [.shutClaimGrant]
      else if s.burstClaim = true then [.recordBurstGrant]
      else if s.capture.demand = true ∧ s.hostWorkMayRun = true then [.captureChunkGrant]
      else if s.pool.active = none ∧ s.pool.queued ≠ [] ∧ s.hostWorkMayRun = true then [.selection]
      else if s.refresh.pullinFloor < s.refresh.balance ∧ s.hostWorkMayRun = true then
        [.opportunisticRefreshGrant]
      else []) ∧
    (s.arbiterOpen = false → s.grantsDue = if s.restoreGrant then [.restoreGrant] else [])

/-- Each grant in its place (R78, R89, R94, R108, R109, R126, R149, R162): the job it gives the path
to, the pause of a record that has a block left, and nothing else. A drain granted with every bank
CLOSED comes at once to the procedure's own work; a SET_MODE with nothing to load then ends READY with
the READY event if the three windows of the array are over, and else waits for them (R150). A burst of
a WRITE or FILL is granted also during a read hold (R93, R151). A restore with every bank CLOSED is
over at once, also while a mode-settle window runs, unless the SET_MODE that it restores had issued a
MODE_LOAD: then it waits for that window. That the restore of an ALIGN, stopped by a second SOFT_RESET
after its own load of M1, does not wait for that load's window is the model's choice (log 37). -/
def Obligations.GrantsGiveThePathToTheirJob : Prop :=
  ∀ s : State,
    let free := s.resetLow = false ∧ s.sched.job = none ∧ s.bus.softPending = false ∧
      s.ctrl.restoreDue = false ∧ s.ctrl.arrayState ∈ [.ready, .setting, .aligning]
    let loaded : Prop := s.ctrl.arrayState = .setting ∧ s.ctrl.progress = .stopped true
    let pausing := s.pool.active.map fun a =>
      { a with paused := a.paused || decide (a.position < a.req.length) }
    (free → s.refresh.urgentLevel ≤ s.refresh.balance →
      exec .urgentRefreshGrant s = .next { s with
        sched.job := some .urgentRefresh, pool.active := pausing }) ∧
    (free → s.refresh.balance < s.refresh.urgentLevel → s.capture.demand = true →
      128 ≤ s.capture.fifo.length →
      exec .captureChunkGrant s = .next { s with
        sched.job := some (.chunk 0), pool.active := pausing }) ∧
    (PathFree s → s.ctrl.arrayState = .ready → s.drainClaim = false → s.capture.demand = true →
      (∀ b, ¬ ShutClaimed s b) → s.burstClaim = false →
      exec .captureChunkGrant s = .next { s with sched.job := some (.chunk 0) }) ∧
    (∀ d, PathFree s → s.ctrl.progress = .draining d → s.pool.active = none →
      (s.allClosed = false →
        exec .drainGrant s = .next { s with
          sched.job := some .procedure, ctrl.progress := .shutAll d }) ∧
      (s.allClosed = true → d ≠ .setMode ∨ s.ctrl.loadWords ≠ [] →
        exec .drainGrant s = .next { s with
          sched.job := some .procedure, ctrl.progress := .due d }) ∧
      (s.allClosed = true → d = .setMode → s.ctrl.loadWords = [] →
        let ended (window : Option Nat) : Prop := ∀ p, window = some p → p ≤ s.now
        let allEnded :=
          ended s.table.renewWindow ∧ ended s.table.modeSettle ∧ ended s.table.modeHold
        (allEnded → exec .drainGrant s = .next (ReadyFrom { s with
          events.flags := s.events.flags ||| 0x40#8 })) ∧
        (¬ allEnded → exec .drainGrant s = .next { s with
          sched.job := some .procedure, ctrl.progress := .due .setMode }))) ∧
    (∀ b, PathFree s → ¬ (s.drainClaim = true ∧ s.pool.active = none) → ShutClaimed s b →
      (∀ c, c < b → ¬ ShutClaimed s c) →
      exec .shutClaimGrant s = .next { s with sched.job := some (.shutClaim b) }) ∧
    (∀ a, PathFree s → (∀ b, ¬ ShutClaimed s b) → s.pool.active = some a →
      a.position < a.req.length → a.aborting = false →
      s.ctrl.readHold = none ∨ a.req.kind = .write ∨ a.req.kind = .fill →
      exec .recordBurstGrant s = .next { s with
        sched.job := some .recordBurst, pool.active := some { a with paused := false } }) ∧
    (PathFree s → s.ctrl.arrayState = .ready → s.drainClaim = false → s.capture.demand = false →
      (∀ b, ¬ ShutClaimed s b) → s.pool.active = none → s.pool.queued = [] →
      s.refresh.pullinFloor < s.refresh.balance →
      exec .opportunisticRefreshGrant s = .next { s with sched.job := some .pullIn }) ∧
    (s.resetLow = false → s.ctrl.restoreDue = true → s.bus.softPending = false →
      s.sched.job = none →
      (s.ctrl.inAlignMode = true → exec .restoreGrant s = .next { s with
        sched.job := some .procedure, ctrl.restoreDue := false, ctrl.progress := .restoreLoad }) ∧
      (s.ctrl.inAlignMode = false → s.allClosed = false → exec .restoreGrant s = .next { s with
        sched.job := some .procedure
        ctrl.restoreDue := false
        ctrl.progress := .restoreShut (decide loaded) }) ∧
      (∀ p, s.ctrl.inAlignMode = false → s.allClosed = true → loaded →
        s.table.modeSettle = some p → s.now < p → exec .restoreGrant s = .next { s with
          sched.job := some .procedure
          ctrl.restoreDue := false
          ctrl.progress := .restoreShut true }) ∧
      (s.ctrl.inAlignMode = false → s.allClosed = true →
        (∀ p, s.table.modeSettle = some p → p ≤ s.now) ∨ ¬ loaded →
        exec .restoreGrant s = .next (ReadyFrom { s with ctrl.restoreDue := false })))

/-- SELECTION (R26, R70, R84 to R86, R88): among the eligible records, those that conflict with no
record accepted before them, in the order of the list, which is that of acceptance (log 19), the
choice is the earliest whose age is at least AGE_LIMIT; failing that, the earliest URGENT row hit, or
URGENT record; failing that, the same among the NORMAL ones. It becomes ACTIVE at its first block, the
eligible records passed over age by 1 up to 15, the others keep their ages, and the order of the rest
stays. -/
def Obligations.SelectionChoosesByAgeUrgencyAndRowHit : Prop :=
  ∀ s : State, PathFree s → s.ctrl.arrayState = .ready → s.drainClaim = false →
    s.capture.demand = false → (∀ b, ¬ ShutClaimed s b) → s.pool.active = none →
    s.pool.queued ≠ [] → s.pool.queued.Nodup →
    let isWrite (r : Request) : Prop := r.kind = .write ∨ r.kind = .fill
    let conflict (e q : Queued) : Prop :=
      e.req.address ≤ q.req.address + q.req.length - 1 ∧
      q.req.address ≤ e.req.address + e.req.length - 1 ∧ (isWrite e.req ∨ isWrite q.req)
    let eligible (q : Queued) : Prop :=
      ∃ before after, s.pool.queued = before ++ q :: after ∧ ∀ e, e ∈ before → ¬ conflict e q
    let old (q : Queued) : Prop := s.sched.ageLimit ≤ q.age
    let urgent (q : Queued) : Prop := q.req.urgent = true
    let hit (q : Queued) : Prop :=
      let e := s.bank (bankOf s.setup.workGeometry q.req.address)
      (e.state = .opening ∨ e.state = .opened) ∧
        e.openRow = some (rowOf s.setup.workGeometry q.req.address)
    ∃ before q after t, s.pool.queued = before ++ q :: after ∧ eligible q ∧
      exec .selection s = .next t ∧
      t = { s with pool := t.pool, sched.job := t.sched.job } ∧
      t.pool.done = s.pool.done ∧ t.pool.counter = s.pool.counter ∧
      t.pool.active = some ⟨q.req, q.seq, q.age, false, 0, 0, 0, ⟨0, none⟩, false⟩ ∧
      (s.ctrl.readHold = none ∨ isWrite q.req → t.sched.job = some .recordBurst) ∧
      (let earliest (p : Queued → Prop) : Prop :=
          p q ∧ ∀ e, e ∈ before → eligible e → ¬ p e
        let some_ (p : Queued → Prop) : Prop := ∃ e, eligible e ∧ p e
        (some_ old → earliest old) ∧
        (¬ some_ old → some_ urgent →
          (some_ (fun e => urgent e ∧ hit e) → earliest fun e => urgent e ∧ hit e) ∧
          (¬ some_ (fun e => urgent e ∧ hit e) → earliest urgent)) ∧
        (¬ some_ old → ¬ some_ urgent →
          (some_ hit → earliest hit) ∧ (¬ some_ hit → earliest fun _ => True))) ∧
      t.pool.queued.map (fun e => e.req) = (before ++ after).map (fun e => e.req) ∧
      (∀ e, e ∈ before ++ after →
        (eligible e → { e with age := min 15 (e.age + 1) } ∈ t.pool.queued) ∧
        (¬ eligible e → e ∈ t.pool.queued))

/-- ROW_OPEN and ROW_SHUT (R7, R8, R60, R63, R66, R69): issued at the first AC at which the command lines
are free (log 3). The burst job of the ACTIVE record wants the bank and row of its next block, and a
chunk's job those of the ring address (R89, R126). Such a job opens its CLOSED bank at its row once open
spacing, renew and mode-settle windows have passed; it shuts a bank OPEN at another row, or marked. A
shut claim's job shuts its bank and ends. A refresh group, and the shut-all of a procedure, a doze or
retain entry or a restore, shuts the lowest-numbered bank that may be shut. Nothing else changes. -/
def Obligations.RowsAreOpenedAndShutForTheJob : Prop :=
  ∀ (s : State) (b : Fin 8), s.resetLow = false →
    let n := s.issuePoint
    let g := s.setup.workGeometry
    let ended (window : Option Nat) : Prop := ∀ p, window = some p → p ≤ s.now
    let wanted (row : Nat) : Prop :=
      (∃ a x, s.sched.job = some .recordBurst ∧ s.pool.active = some a ∧
        a.req.blockAt g a.position = some x ∧ x.bank = b ∧ x.row = row) ∨
      (∃ j, s.sched.job = some (.chunk j) ∧
        bankOf g (s.capture.base.toNat + s.capture.producer) = b ∧
        rowOf g (s.capture.base.toNat + s.capture.producer) = row)
    let shut (job : Option Job) : Host.Outcome State Fault Refusal := .next { s with
      now := n
      port := some ⟨.rowShut b, n⟩
      ctrl.dozeTimer := DozeTimerAfter s n
      table.banks := s.table.banks.set b.val { s.bank b with
        state := .shutting
        openRow := none
        closeTimeEnd := some (n + s.setup.working.get 2)
        mark := false } b.isLt
      sched.job := job }
    (∀ row, wanted row → (s.bank b).state = .closed → ended s.table.openSpacing →
      ended s.table.renewWindow → ended s.table.modeSettle →
      exec .rowOpen s = .next { s with
        now := n
        port := some ⟨.rowOpen b row, n⟩
        ctrl.dozeTimer := DozeTimerAfter s n
        table.banks := s.table.banks.set b.val { s.bank b with
          state := .opening
          openRow := some row
          openDelayEnd := some (n + s.setup.working.get 0)
          minOpenEnd := some (n + s.setup.working.get 1) } b.isLt
        table.openSpacing := some (n + s.setup.working.get 5) }) ∧
    (∀ row, wanted row → MayShut s b → (s.bank b).openRow ≠ some row ∨ (s.bank b).mark = true →
      exec .rowShut s = shut s.sched.job) ∧
    (s.sched.job = some (.shutClaim b) → MayShut s b → exec .rowShut s = shut none) ∧
    (s.sched.job = some .urgentRefresh ∨ s.sched.job = some .pullIn ∨
        (s.sched.job = some .procedure ∧
          ((∃ d, s.ctrl.progress = .shutAll d) ∨ ∃ w, s.ctrl.progress = .restoreShut w)) →
      MayShut s b → (∀ c, c < b → ¬ MayShut s c) → exec .rowShut s = shut s.sched.job)

/-- RENEW (R12, R65, R105, R108, R109), at the first AC at which the command lines are free (log 3): for
a refresh group with every bank CLOSED, no renew and no
mode-settle window running and a balance above −8, it lowers the balance by 1 and starts the renew
window; an opportunistic group ends at it, and an urgent one when the balance is not above 0. Within a
procedure, an entry or a suspension it does the same for the urgent claim, and when the balance is not
above 0 the work goes on (R149, R154, R158, R172). A refresh
period that expires together with a RENEW gives one balance in either order below +8; at +8 the RENEW
taken first leaves +8 with no violation, the expiry taken first a violation and +7 (R106). -/
def Obligations.RenewLowersTheBalance : Prop :=
  (∀ s : State, s.resetLow = false → s.sched.job = some .urgentRefresh ∨ s.sched.job = some .pullIn →
    s.allClosed = true → s.table.renewWindow = none → s.table.modeSettle = none →
    -8 < s.refresh.balance → s.ctrl.arrayState ∉ [.dozing, .retaining] →
    let n := s.issuePoint
    exec .renew s = .next { s with
      now := n
      port := some ⟨.renew, n⟩
      ctrl.dozeTimer := DozeTimerAfter s n
      refresh.balance := s.refresh.balance - 1
      table.renewWindow := some (n + s.setup.working.get 6)
      sched.job :=
        if s.sched.job = some .urgentRefresh ∧ 1 < s.refresh.balance then some .urgentRefresh
        else none }) ∧
  (∀ (s : State) (served : Progress), s.resetLow = false → s.sched.job = some .procedure →
    (s.ctrl.progress = .renewing .setMode ∧ served = .due .setMode) ∨
      (s.ctrl.progress = .renewing .align ∧ served = .renewed) ∨
      (s.ctrl.progress = .renewing .retain ∧ served = .due .retain) ∨
      (s.ctrl.progress = .suspendRenew ∧ served = .suspendSet) →
    s.allClosed = true → s.table.renewWindow = none → s.table.modeSettle = none →
    -8 < s.refresh.balance → s.ctrl.arrayState ∉ [.dozing, .retaining] →
    let n := s.issuePoint
    exec .renew s = .next { s with
      now := n
      port := some ⟨.renew, n⟩
      ctrl.dozeTimer := DozeTimerAfter s n
      ctrl.progress := if 1 < s.refresh.balance then s.ctrl.progress else served
      refresh.balance := s.refresh.balance - 1
      table.renewWindow := some (n + s.setup.working.get 6) }) ∧
  (∀ s a b c d : State, s.resetLow = false → s.refresh.balance ≤ 8 → s.mayRenew = true →
    s.refresh.timer.isSome = true → exec .renew s = .next a → exec .refreshPeriodExpiry a = .next b →
    exec .refreshPeriodExpiry s = .next c → c.mayRenew = true → exec .renew c = .next d →
    (b.refresh.balance = s.refresh.balance ∧ b.refresh.violations = s.refresh.violations) ∧
    (s.refresh.balance < 8 →
      d.refresh.balance = s.refresh.balance ∧ d.refresh.violations = s.refresh.violations) ∧
    (s.refresh.balance = 8 → d.refresh.balance = 7 ∧
      d.refresh.violations = min 255 (s.refresh.violations + 1)))

/-- MODE_LOAD (R12, R142, R146, R150, R151), at the first AC at which the command lines are free (log 3):
the next load word of a start-up or a SET_MODE, with every
bank CLOSED and the mode-hold window over; the first of a SET_MODE also once the renew and mode-settle
windows are over (R150). The value is the image's, in STARTING with M0's lock-restart
bit 8 set and M1's align-mode bit 7 clear. The array copy takes the value, M0 without bit 8; a lock
restart clears that bit of the shadow and, in SETTING, begins the read hold; the two mode windows run
from the load, and the word leaves the list.
The loads of one word with its array copy's value: M1 with align mode set begins the probing of an ALIGN,
at once or when the renew window of the procedure's last RENEW is over (R154), or of STARTING (R143), and
ends a suspension (R158); M1 with align mode clear begins a suspension, the end of an alignment (R157) or
a restore (R162); M0 with lock restart set is the load of a retain exit that had to wait (R175, log 32),
and begins the read hold. A claim that stands when a load begins the probing suspends an ALIGN (R158). -/
def Obligations.ModeLoadSetsTheArrayCopy : Prop :=
  (∀ (s : State) (w : Fin 4) (rest : List (Fin 4)), s.resetLow = false →
    s.sched.job = some .procedure →
    s.ctrl.progress = .loading ∨ (s.ctrl.progress = .due .setMode ∧
      s.table.renewWindow = none ∧ s.table.modeSettle = none) →
    s.ctrl.loadWords = w :: rest → s.allClosed = true → s.table.modeHold = none →
    s.ctrl.arrayState = .starting ∨ s.ctrl.arrayState = .setting →
    let n := s.issuePoint
    let image := s.ctrl.loadImage.get w
    let v : Word :=
      if s.ctrl.arrayState = .starting ∧ w = 0 then image ||| 0x0100#16
      else if s.ctrl.arrayState = .starting ∧ w = 1 then image &&& 0xFF7F#16
      else image
    let restart := w = 0 ∧ v.getLsbD 8 = true
    exec .modeLoad s = .next { s with
      now := n
      port := some ⟨.modeLoad w v, n⟩
      ctrl.progress := .loading
      ctrl.loadWords := rest
      ctrl.copies := s.ctrl.copies.set w.val (some (if w = 0 then v &&& 0xFEFF#16 else v)) w.isLt
      ctrl.shadows :=
        if restart then s.ctrl.shadows.set 0 (s.ctrl.shadows.get 0 &&& 0xFEFF#16)
        else s.ctrl.shadows
      ctrl.readHold :=
        if restart ∧ s.ctrl.arrayState = .setting then some (n + s.setup.working.get 9)
        else s.ctrl.readHold
      table.modeHold := some (n + s.setup.working.get 7)
      table.modeSettle := some (n + s.setup.working.get 8) }) ∧
  (∀ (s : State) (m1 : Word), s.resetLow = false → s.sched.job = some .procedure →
    s.allClosed = true → s.table.modeHold = none → s.ctrl.copies.get 1 = some m1 →
    s.ctrl.arrayState ≠ .ready →
    let n := s.issuePoint
    let loads (v : Word) (next : Progress) : Prop := exec .modeLoad s = .next { s with
      now := n
      port := some ⟨.modeLoad 1 v, n⟩
      ctrl.progress := next
      ctrl.copies := s.ctrl.copies.set 1 (some v)
      table.modeHold := some (n + s.setup.working.get 7)
      table.modeSettle := some (n + s.setup.working.get 8) }
    let probes : Progress :=
      if s.ctrl.arrayState = .aligning ∧ s.ctrl.probe = none ∧
        s.refresh.urgentLevel ≤ s.refresh.balance then .suspendClear else .probing
    (s.ctrl.progress = .due .align → loads (m1 ||| 0x0080#16) probes) ∧
    (s.ctrl.progress = .renewed → s.table.renewWindow = none → loads (m1 ||| 0x0080#16) probes) ∧
    (s.ctrl.progress = .suspendSet → s.table.renewWindow = none →
      loads (m1 ||| 0x0080#16) .suspendResume) ∧
    (s.ctrl.progress = .suspendClear → loads (m1 &&& 0xFF7F#16) .suspendSettle) ∧
    (s.ctrl.progress = .endClear → loads (m1 &&& 0xFF7F#16) .endSettle) ∧
    (s.ctrl.progress = .restoreLoad → loads (m1 &&& 0xFF7F#16) (.restoreShut true))) ∧
  (∀ (s : State) (m0 : Word), s.resetLow = false → s.sched.job = some .procedure →
    s.allClosed = true → s.table.modeHold = none → s.ctrl.copies.get 0 = some m0 →
    s.ctrl.arrayState = .retaining → s.ctrl.progress = .exitLoad →
    let n := s.issuePoint
    exec .modeLoad s = .next { s with
      now := n
      port := some ⟨.modeLoad 0 (m0 ||| 0x0100#16), n⟩
      ctrl.progress := .exitSettle
      ctrl.copies := s.ctrl.copies.set 0 (some (m0 &&& 0xFEFF#16))
      ctrl.shadows := s.ctrl.shadows.set 0 (s.ctrl.shadows.get 0 &&& 0xFEFF#16)
      ctrl.readHold := some (n + s.setup.working.get 9)
      table.modeHold := some (n + s.setup.working.get 7)
      table.modeSettle := some (n + s.setup.working.get 8) })

/-- NAP_IN and RETAIN_IN (R13, R65, R166, R172), at the first AC at which the command lines are free (log
3): issued for the entry that holds the path with every bank
CLOSED and no renew and no mode-settle window running. NAP_IN enters DOZING; RETAIN_IN enters RETAINING,
ends the indication, starts RETAIN_MIN and stops the refresh-period timer. Each lowers clock enable,
stops the doze idle timer and ends the job. -/
def Obligations.NapInDozesAndRetainInRetains : Prop :=
  ∀ s : State, s.resetLow = false → s.sched.job = some .procedure → s.allClosed = true →
    s.table.renewWindow = none → s.table.modeSettle = none →
    let n := s.issuePoint
    (s.ctrl.progress = .due .doze → exec .napIn s = .next { s with
      now := n
      port := some ⟨.napIn, n⟩
      ctrl.arrayState := .dozing
      ctrl.clockEnable := false
      ctrl.progress := .idle
      ctrl.dozeTimer := none
      sched.job := none }) ∧
    (s.ctrl.progress = .due .retain → exec .retainIn s = .next { s with
      now := n
      port := some ⟨.retainIn, n⟩
      ctrl.arrayState := .retaining
      ctrl.indication := .none
      ctrl.clockEnable := false
      ctrl.progress := .idle
      ctrl.dozeTimer := none
      ctrl.retainMin := some (n + s.setup.working.get 12)
      refresh.timer := none
      sched.job := none })

/-! ### What every step keeps -/

/-- The fault record and FAULT agree (R181), and the refresh account, the settings, the geometries and
the divisors stay in their ranges (R1, R15, R17, R86, R102): each of the three invariants is kept by
every step. -/
def Obligations.RegistersStayInRangeAtEveryStep : Prop :=
  ∀ s t : State, step s = .next t →
    (s.faultReportAgrees → t.faultReportAgrees) ∧
    (s.refreshInRange → t.refreshInRange) ∧
    (s.settingsInRange → t.settingsInRange)

/-- Both memories keep their canonical form, the model's own (log 21), at every step. -/
def Obligations.MemoriesStayCanonicalAtEveryStep : Prop :=
  ∀ s t : State, step s = .next t → s.memoriesCanonical → t.memoriesCanonical

/-- The Capture Engine stays within the bounds of chapter 7 at every step: the FIFO, the states, the
offsets of the ring, and what a chunk on the path finds (R118 to R137). -/
def Obligations.CaptureStaysInBoundsAtEveryStep : Prop :=
  ∀ s t : State, step s = .next t → s.captureInBounds → t.captureInBounds

/-- At every step at most 16 records stay live with distinct tags, and a slot stays LENT exactly to the
QUEUED or ACTIVE record whose span covers it (R27, R30, R43, R86). -/
def Obligations.PoolAndSlotsAgreeAtEveryStep : Prop :=
  ∀ s t : State, step s = .next t → s.poolAndSlotsAgree → t.poolAndSlotsAgree

/-- The Bank Table's entries stay formed at every step, and every bank is CLOSED in COLD, STARTING,
DOZING and RETAINING (R57, R67, R83, R166, R173). -/
def Obligations.BanksStayFormedAtEveryStep : Prop :=
  ∀ s t : State, step s = .next t → s.banksAgree → t.banksAgree

/-- The Array Controller's parts stay in agreement at every step: its work, the array state, the
indication, the timers, the job on the path and align mode (R101, R103, R139, R145, R164, R171,
R174). -/
def Obligations.ControllerPartsAgreeAtEveryStep : Prop :=
  ∀ s t : State, step s = .next t → s.controllerAgrees → t.controllerAgrees

/-- The machine right after reset has every invariant that the steps keep. -/
def Obligations.ResetHasEveryInvariant : Prop :=
  State.reset.faultReportAgrees ∧ State.reset.refreshInRange ∧ State.reset.settingsInRange ∧
  State.reset.memoriesCanonical ∧ State.reset.captureInBounds ∧ State.reset.poolAndSlotsAgree ∧
  State.reset.banksAgree ∧ State.reset.controllerAgrees
end

