-- ==== Sys2Proof/Laws/State.lean ====
section
/-! SUPPORT. What each update of the state leaves unchanged: one lemma per field per update. -/

namespace Sys2Proof.Machine

@[simp] theorem State.atAC_bus (s : State) (t : Nat) : (s.atAC t).bus = s.bus := rfl
@[simp] theorem State.atAC_pool (s : State) (t : Nat) : (s.atAC t).pool = s.pool := rfl
@[simp] theorem State.atAC_staging (s : State) (t : Nat) : (s.atAC t).staging = s.staging := rfl
@[simp] theorem State.atAC_events (s : State) (t : Nat) : (s.atAC t).events = s.events := rfl
@[simp] theorem State.atAC_sched (s : State) (t : Nat) : (s.atAC t).sched = s.sched := rfl
@[simp] theorem State.atAC_table (s : State) (t : Nat) : (s.atAC t).table = s.table := rfl
@[simp] theorem State.atAC_refresh (s : State) (t : Nat) : (s.atAC t).refresh = s.refresh := rfl
@[simp] theorem State.atAC_capture (s : State) (t : Nat) : (s.atAC t).capture = s.capture := rfl
@[simp] theorem State.atAC_setup (s : State) (t : Nat) : (s.atAC t).setup = s.setup := rfl
@[simp] theorem State.atAC_ctrl (s : State) (t : Nat) : (s.atAC t).ctrl = s.ctrl := rfl
@[simp] theorem State.atAC_array (s : State) (t : Nat) : (s.atAC t).array = s.array := rfl
@[simp] theorem State.atAC_resetLow (s : State) (t : Nat) :
    (s.atAC t).resetLow = s.resetLow := rfl
@[simp] theorem State.atAC_port (s : State) (t : Nat) : (s.atAC t).port = s.port := rfl
@[simp] theorem State.atAC_draws (s : State) (t : Nat) : (s.atAC t).draws = s.draws := rfl
@[simp] theorem State.atAC_pending (s : State) (t : Nat) : (s.atAC t).pending = s.pending := rfl

@[simp] theorem State.raiseEvent_bus (s : State) (e : Event) : (s.raiseEvent e).bus = s.bus := rfl
@[simp] theorem State.raiseEvent_pool (s : State) (e : Event) :
    (s.raiseEvent e).pool = s.pool := rfl
@[simp] theorem State.raiseEvent_staging (s : State) (e : Event) :
    (s.raiseEvent e).staging = s.staging := rfl
@[simp] theorem State.raiseEvent_sched (s : State) (e : Event) :
    (s.raiseEvent e).sched = s.sched := rfl
@[simp] theorem State.raiseEvent_table (s : State) (e : Event) :
    (s.raiseEvent e).table = s.table := rfl
@[simp] theorem State.raiseEvent_refresh (s : State) (e : Event) :
    (s.raiseEvent e).refresh = s.refresh := rfl
@[simp] theorem State.raiseEvent_capture (s : State) (e : Event) :
    (s.raiseEvent e).capture = s.capture := rfl
@[simp] theorem State.raiseEvent_setup (s : State) (e : Event) :
    (s.raiseEvent e).setup = s.setup := rfl
@[simp] theorem State.raiseEvent_ctrl (s : State) (e : Event) :
    (s.raiseEvent e).ctrl = s.ctrl := rfl
@[simp] theorem State.raiseEvent_array (s : State) (e : Event) :
    (s.raiseEvent e).array = s.array := rfl
@[simp] theorem State.raiseEvent_resetLow (s : State) (e : Event) :
    (s.raiseEvent e).resetLow = s.resetLow := rfl
@[simp] theorem State.raiseEvent_port (s : State) (e : Event) :
    (s.raiseEvent e).port = s.port := rfl
@[simp] theorem State.raiseEvent_now (s : State) (e : Event) : (s.raiseEvent e).now = s.now := rfl
@[simp] theorem State.raiseEvent_draws (s : State) (e : Event) :
    (s.raiseEvent e).draws = s.draws := rfl
@[simp] theorem State.raiseEvent_pending (s : State) (e : Event) :
    (s.raiseEvent e).pending = s.pending := rfl

@[simp] theorem State.raiseFault_bus (s : State) (k : FaultKind) (d : Word) :
    (s.raiseFault k d).bus = s.bus := rfl
@[simp] theorem State.raiseFault_pool (s : State) (k : FaultKind) (d : Word) :
    (s.raiseFault k d).pool = s.pool := rfl
@[simp] theorem State.raiseFault_staging (s : State) (k : FaultKind) (d : Word) :
    (s.raiseFault k d).staging = s.staging := rfl
@[simp] theorem State.raiseFault_sched (s : State) (k : FaultKind) (d : Word) :
    (s.raiseFault k d).sched = s.sched := rfl
@[simp] theorem State.raiseFault_table (s : State) (k : FaultKind) (d : Word) :
    (s.raiseFault k d).table = s.table := rfl
@[simp] theorem State.raiseFault_refresh (s : State) (k : FaultKind) (d : Word) :
    (s.raiseFault k d).refresh = s.refresh := rfl
@[simp] theorem State.raiseFault_capture (s : State) (k : FaultKind) (d : Word) :
    (s.raiseFault k d).capture = s.capture := rfl
@[simp] theorem State.raiseFault_setup (s : State) (k : FaultKind) (d : Word) :
    (s.raiseFault k d).setup = s.setup := rfl
@[simp] theorem State.raiseFault_ctrl (s : State) (k : FaultKind) (d : Word) :
    (s.raiseFault k d).ctrl = s.ctrl := rfl
@[simp] theorem State.raiseFault_array (s : State) (k : FaultKind) (d : Word) :
    (s.raiseFault k d).array = s.array := rfl
@[simp] theorem State.raiseFault_resetLow (s : State) (k : FaultKind) (d : Word) :
    (s.raiseFault k d).resetLow = s.resetLow := rfl
@[simp] theorem State.raiseFault_port (s : State) (k : FaultKind) (d : Word) :
    (s.raiseFault k d).port = s.port := rfl
@[simp] theorem State.raiseFault_now (s : State) (k : FaultKind) (d : Word) :
    (s.raiseFault k d).now = s.now := rfl
@[simp] theorem State.raiseFault_draws (s : State) (k : FaultKind) (d : Word) :
    (s.raiseFault k d).draws = s.draws := rfl
@[simp] theorem State.raiseFault_pending (s : State) (k : FaultKind) (d : Word) :
    (s.raiseFault k d).pending = s.pending := rfl

@[simp] theorem State.issue_bus (s : State) (op : ArrayOp) (t : Nat) :
    (s.issue op t).bus = s.bus := rfl
@[simp] theorem State.issue_pool (s : State) (op : ArrayOp) (t : Nat) :
    (s.issue op t).pool = s.pool := rfl
@[simp] theorem State.issue_staging (s : State) (op : ArrayOp) (t : Nat) :
    (s.issue op t).staging = s.staging := rfl
@[simp] theorem State.issue_events (s : State) (op : ArrayOp) (t : Nat) :
    (s.issue op t).events = s.events := rfl
@[simp] theorem State.issue_sched (s : State) (op : ArrayOp) (t : Nat) :
    (s.issue op t).sched = s.sched := rfl
@[simp] theorem State.issue_table (s : State) (op : ArrayOp) (t : Nat) :
    (s.issue op t).table = s.table := rfl
@[simp] theorem State.issue_refresh (s : State) (op : ArrayOp) (t : Nat) :
    (s.issue op t).refresh = s.refresh := rfl
@[simp] theorem State.issue_capture (s : State) (op : ArrayOp) (t : Nat) :
    (s.issue op t).capture = s.capture := rfl
@[simp] theorem State.issue_setup (s : State) (op : ArrayOp) (t : Nat) :
    (s.issue op t).setup = s.setup := rfl
@[simp] theorem State.issue_array (s : State) (op : ArrayOp) (t : Nat) :
    (s.issue op t).array = s.array := rfl
@[simp] theorem State.issue_resetLow (s : State) (op : ArrayOp) (t : Nat) :
    (s.issue op t).resetLow = s.resetLow := rfl
@[simp] theorem State.issue_draws (s : State) (op : ArrayOp) (t : Nat) :
    (s.issue op t).draws = s.draws := rfl
@[simp] theorem State.issue_pending (s : State) (op : ArrayOp) (t : Nat) :
    (s.issue op t).pending = s.pending := rfl

@[simp] theorem State.setBank_bus (s : State) (b : Fin 8) (e : Bank) :
    (s.setBank b e).bus = s.bus := rfl
@[simp] theorem State.setBank_pool (s : State) (b : Fin 8) (e : Bank) :
    (s.setBank b e).pool = s.pool := rfl
@[simp] theorem State.setBank_staging (s : State) (b : Fin 8) (e : Bank) :
    (s.setBank b e).staging = s.staging := rfl
@[simp] theorem State.setBank_events (s : State) (b : Fin 8) (e : Bank) :
    (s.setBank b e).events = s.events := rfl
@[simp] theorem State.setBank_sched (s : State) (b : Fin 8) (e : Bank) :
    (s.setBank b e).sched = s.sched := rfl
@[simp] theorem State.setBank_refresh (s : State) (b : Fin 8) (e : Bank) :
    (s.setBank b e).refresh = s.refresh := rfl
@[simp] theorem State.setBank_capture (s : State) (b : Fin 8) (e : Bank) :
    (s.setBank b e).capture = s.capture := rfl
@[simp] theorem State.setBank_setup (s : State) (b : Fin 8) (e : Bank) :
    (s.setBank b e).setup = s.setup := rfl
@[simp] theorem State.setBank_ctrl (s : State) (b : Fin 8) (e : Bank) :
    (s.setBank b e).ctrl = s.ctrl := rfl
@[simp] theorem State.setBank_array (s : State) (b : Fin 8) (e : Bank) :
    (s.setBank b e).array = s.array := rfl
@[simp] theorem State.setBank_resetLow (s : State) (b : Fin 8) (e : Bank) :
    (s.setBank b e).resetLow = s.resetLow := rfl
@[simp] theorem State.setBank_port (s : State) (b : Fin 8) (e : Bank) :
    (s.setBank b e).port = s.port := rfl
@[simp] theorem State.setBank_now (s : State) (b : Fin 8) (e : Bank) :
    (s.setBank b e).now = s.now := rfl
@[simp] theorem State.setBank_draws (s : State) (b : Fin 8) (e : Bank) :
    (s.setBank b e).draws = s.draws := rfl
@[simp] theorem State.setBank_pending (s : State) (b : Fin 8) (e : Bank) :
    (s.setBank b e).pending = s.pending := rfl

@[simp] theorem State.markRow_bus (s : State) (b : Fin 8) (row : Nat) :
    (s.markRow b row).bus = s.bus := rfl
@[simp] theorem State.markRow_pool (s : State) (b : Fin 8) (row : Nat) :
    (s.markRow b row).pool = s.pool := rfl
@[simp] theorem State.markRow_staging (s : State) (b : Fin 8) (row : Nat) :
    (s.markRow b row).staging = s.staging := rfl
@[simp] theorem State.markRow_events (s : State) (b : Fin 8) (row : Nat) :
    (s.markRow b row).events = s.events := rfl
@[simp] theorem State.markRow_sched (s : State) (b : Fin 8) (row : Nat) :
    (s.markRow b row).sched = s.sched := rfl
@[simp] theorem State.markRow_refresh (s : State) (b : Fin 8) (row : Nat) :
    (s.markRow b row).refresh = s.refresh := rfl
@[simp] theorem State.markRow_capture (s : State) (b : Fin 8) (row : Nat) :
    (s.markRow b row).capture = s.capture := rfl
@[simp] theorem State.markRow_setup (s : State) (b : Fin 8) (row : Nat) :
    (s.markRow b row).setup = s.setup := rfl
@[simp] theorem State.markRow_ctrl (s : State) (b : Fin 8) (row : Nat) :
    (s.markRow b row).ctrl = s.ctrl := rfl
@[simp] theorem State.markRow_array (s : State) (b : Fin 8) (row : Nat) :
    (s.markRow b row).array = s.array := rfl
@[simp] theorem State.markRow_resetLow (s : State) (b : Fin 8) (row : Nat) :
    (s.markRow b row).resetLow = s.resetLow := rfl
@[simp] theorem State.markRow_port (s : State) (b : Fin 8) (row : Nat) :
    (s.markRow b row).port = s.port := rfl
@[simp] theorem State.markRow_now (s : State) (b : Fin 8) (row : Nat) :
    (s.markRow b row).now = s.now := rfl
@[simp] theorem State.markRow_draws (s : State) (b : Fin 8) (row : Nat) :
    (s.markRow b row).draws = s.draws := rfl
@[simp] theorem State.markRow_pending (s : State) (b : Fin 8) (row : Nat) :
    (s.markRow b row).pending = s.pending := rfl

@[simp] theorem State.abandonDoze_bus (s : State) : s.abandonDoze.bus = s.bus := rfl
@[simp] theorem State.abandonDoze_pool (s : State) : s.abandonDoze.pool = s.pool := rfl
@[simp] theorem State.abandonDoze_staging (s : State) : s.abandonDoze.staging = s.staging := rfl
@[simp] theorem State.abandonDoze_events (s : State) : s.abandonDoze.events = s.events := rfl
@[simp] theorem State.abandonDoze_table (s : State) : s.abandonDoze.table = s.table := rfl
@[simp] theorem State.abandonDoze_refresh (s : State) : s.abandonDoze.refresh = s.refresh := rfl
@[simp] theorem State.abandonDoze_capture (s : State) : s.abandonDoze.capture = s.capture := rfl
@[simp] theorem State.abandonDoze_setup (s : State) : s.abandonDoze.setup = s.setup := rfl
@[simp] theorem State.abandonDoze_array (s : State) : s.abandonDoze.array = s.array := rfl
@[simp] theorem State.abandonDoze_resetLow (s : State) :
    s.abandonDoze.resetLow = s.resetLow := rfl
@[simp] theorem State.abandonDoze_port (s : State) : s.abandonDoze.port = s.port := rfl
@[simp] theorem State.abandonDoze_now (s : State) : s.abandonDoze.now = s.now := rfl
@[simp] theorem State.abandonDoze_draws (s : State) : s.abandonDoze.draws = s.draws := rfl
@[simp] theorem State.abandonDoze_pending (s : State) : s.abandonDoze.pending = s.pending := rfl

@[simp] theorem State.beginWake_bus (s : State) : s.beginWake.bus = s.bus := rfl
@[simp] theorem State.beginWake_pool (s : State) : s.beginWake.pool = s.pool := rfl
@[simp] theorem State.beginWake_staging (s : State) : s.beginWake.staging = s.staging := rfl
@[simp] theorem State.beginWake_events (s : State) : s.beginWake.events = s.events := rfl
@[simp] theorem State.beginWake_table (s : State) : s.beginWake.table = s.table := rfl
@[simp] theorem State.beginWake_refresh (s : State) : s.beginWake.refresh = s.refresh := rfl
@[simp] theorem State.beginWake_capture (s : State) : s.beginWake.capture = s.capture := rfl
@[simp] theorem State.beginWake_setup (s : State) : s.beginWake.setup = s.setup := rfl
@[simp] theorem State.beginWake_array (s : State) : s.beginWake.array = s.array := rfl
@[simp] theorem State.beginWake_resetLow (s : State) : s.beginWake.resetLow = s.resetLow := rfl
@[simp] theorem State.beginWake_draws (s : State) : s.beginWake.draws = s.draws := rfl
@[simp] theorem State.beginWake_pending (s : State) : s.beginWake.pending = s.pending := rfl

@[simp] theorem State.enterReady_bus (s : State) : s.enterReady.bus = s.bus := rfl
@[simp] theorem State.enterReady_pool (s : State) : s.enterReady.pool = s.pool := rfl
@[simp] theorem State.enterReady_staging (s : State) : s.enterReady.staging = s.staging := rfl
@[simp] theorem State.enterReady_events (s : State) : s.enterReady.events = s.events := rfl
@[simp] theorem State.enterReady_table (s : State) : s.enterReady.table = s.table := rfl
@[simp] theorem State.enterReady_refresh (s : State) : s.enterReady.refresh = s.refresh := rfl
@[simp] theorem State.enterReady_capture (s : State) : s.enterReady.capture = s.capture := rfl
@[simp] theorem State.enterReady_setup (s : State) : s.enterReady.setup = s.setup := rfl
@[simp] theorem State.enterReady_array (s : State) : s.enterReady.array = s.array := rfl
@[simp] theorem State.enterReady_resetLow (s : State) : s.enterReady.resetLow = s.resetLow := rfl
@[simp] theorem State.enterReady_port (s : State) : s.enterReady.port = s.port := rfl
@[simp] theorem State.enterReady_now (s : State) : s.enterReady.now = s.now := rfl
@[simp] theorem State.enterReady_draws (s : State) : s.enterReady.draws = s.draws := rfl
@[simp] theorem State.enterReady_pending (s : State) : s.enterReady.pending = s.pending := rfl

@[simp] theorem State.startRefreshTimer_bus (s : State) : s.startRefreshTimer.bus = s.bus := rfl
@[simp] theorem State.startRefreshTimer_pool (s : State) :
    s.startRefreshTimer.pool = s.pool := rfl
@[simp] theorem State.startRefreshTimer_staging (s : State) :
    s.startRefreshTimer.staging = s.staging := rfl
@[simp] theorem State.startRefreshTimer_events (s : State) :
    s.startRefreshTimer.events = s.events := rfl
@[simp] theorem State.startRefreshTimer_sched (s : State) :
    s.startRefreshTimer.sched = s.sched := rfl
@[simp] theorem State.startRefreshTimer_table (s : State) :
    s.startRefreshTimer.table = s.table := rfl
@[simp] theorem State.startRefreshTimer_capture (s : State) :
    s.startRefreshTimer.capture = s.capture := rfl
@[simp] theorem State.startRefreshTimer_setup (s : State) :
    s.startRefreshTimer.setup = s.setup := rfl
@[simp] theorem State.startRefreshTimer_ctrl (s : State) :
    s.startRefreshTimer.ctrl = s.ctrl := rfl
@[simp] theorem State.startRefreshTimer_array (s : State) :
    s.startRefreshTimer.array = s.array := rfl
@[simp] theorem State.startRefreshTimer_resetLow (s : State) :
    s.startRefreshTimer.resetLow = s.resetLow := rfl
@[simp] theorem State.startRefreshTimer_port (s : State) :
    s.startRefreshTimer.port = s.port := rfl
@[simp] theorem State.startRefreshTimer_now (s : State) : s.startRefreshTimer.now = s.now := rfl
@[simp] theorem State.startRefreshTimer_draws (s : State) :
    s.startRefreshTimer.draws = s.draws := rfl
@[simp] theorem State.startRefreshTimer_pending (s : State) :
    s.startRefreshTimer.pending = s.pending := rfl

@[simp] theorem State.nextRefreshPeriod_bus (s : State) : s.nextRefreshPeriod.bus = s.bus := rfl
@[simp] theorem State.nextRefreshPeriod_pool (s : State) :
    s.nextRefreshPeriod.pool = s.pool := rfl
@[simp] theorem State.nextRefreshPeriod_staging (s : State) :
    s.nextRefreshPeriod.staging = s.staging := rfl
@[simp] theorem State.nextRefreshPeriod_events (s : State) :
    s.nextRefreshPeriod.events = s.events := rfl
@[simp] theorem State.nextRefreshPeriod_sched (s : State) :
    s.nextRefreshPeriod.sched = s.sched := rfl
@[simp] theorem State.nextRefreshPeriod_table (s : State) :
    s.nextRefreshPeriod.table = s.table := rfl
@[simp] theorem State.nextRefreshPeriod_capture (s : State) :
    s.nextRefreshPeriod.capture = s.capture := rfl
@[simp] theorem State.nextRefreshPeriod_setup (s : State) :
    s.nextRefreshPeriod.setup = s.setup := rfl
@[simp] theorem State.nextRefreshPeriod_ctrl (s : State) :
    s.nextRefreshPeriod.ctrl = s.ctrl := rfl
@[simp] theorem State.nextRefreshPeriod_array (s : State) :
    s.nextRefreshPeriod.array = s.array := rfl
@[simp] theorem State.nextRefreshPeriod_resetLow (s : State) :
    s.nextRefreshPeriod.resetLow = s.resetLow := rfl
@[simp] theorem State.nextRefreshPeriod_port (s : State) :
    s.nextRefreshPeriod.port = s.port := rfl
@[simp] theorem State.nextRefreshPeriod_now (s : State) : s.nextRefreshPeriod.now = s.now := rfl
@[simp] theorem State.nextRefreshPeriod_draws (s : State) :
    s.nextRefreshPeriod.draws = s.draws := rfl
@[simp] theorem State.nextRefreshPeriod_pending (s : State) :
    s.nextRefreshPeriod.pending = s.pending := rfl

@[simp] theorem State.loseContents_bus (s : State) : s.loseContents.bus = s.bus := rfl
@[simp] theorem State.loseContents_pool (s : State) : s.loseContents.pool = s.pool := rfl
@[simp] theorem State.loseContents_staging (s : State) : s.loseContents.staging = s.staging := rfl
@[simp] theorem State.loseContents_events (s : State) : s.loseContents.events = s.events := rfl
@[simp] theorem State.loseContents_table (s : State) : s.loseContents.table = s.table := rfl
@[simp] theorem State.loseContents_refresh (s : State) : s.loseContents.refresh = s.refresh := rfl
@[simp] theorem State.loseContents_capture (s : State) : s.loseContents.capture = s.capture := rfl
@[simp] theorem State.loseContents_setup (s : State) : s.loseContents.setup = s.setup := rfl
@[simp] theorem State.loseContents_ctrl (s : State) : s.loseContents.ctrl = s.ctrl := rfl
@[simp] theorem State.loseContents_resetLow (s : State) :
    s.loseContents.resetLow = s.resetLow := rfl
@[simp] theorem State.loseContents_port (s : State) : s.loseContents.port = s.port := rfl
@[simp] theorem State.loseContents_now (s : State) : s.loseContents.now = s.now := rfl
@[simp] theorem State.loseContents_draws (s : State) : s.loseContents.draws = s.draws := rfl
@[simp] theorem State.loseContents_pending (s : State) : s.loseContents.pending = s.pending := rfl

@[simp] theorem State.endStartUp_bus (s : State) : s.endStartUp.bus = s.bus := rfl
@[simp] theorem State.endStartUp_pool (s : State) : s.endStartUp.pool = s.pool := rfl
@[simp] theorem State.endStartUp_staging (s : State) : s.endStartUp.staging = s.staging := rfl
@[simp] theorem State.endStartUp_table (s : State) : s.endStartUp.table = s.table := rfl
@[simp] theorem State.endStartUp_capture (s : State) : s.endStartUp.capture = s.capture := rfl
@[simp] theorem State.endStartUp_setup (s : State) : s.endStartUp.setup = s.setup := rfl
@[simp] theorem State.endStartUp_array (s : State) : s.endStartUp.array = s.array := rfl
@[simp] theorem State.endStartUp_resetLow (s : State) : s.endStartUp.resetLow = s.resetLow := rfl
@[simp] theorem State.endStartUp_port (s : State) : s.endStartUp.port = s.port := rfl
@[simp] theorem State.endStartUp_now (s : State) : s.endStartUp.now = s.now := rfl
@[simp] theorem State.endStartUp_draws (s : State) : s.endStartUp.draws = s.draws := rfl
@[simp] theorem State.endStartUp_pending (s : State) : s.endStartUp.pending = s.pending := rfl

@[simp] theorem State.endRetainExit_bus (s : State) : s.endRetainExit.bus = s.bus := rfl
@[simp] theorem State.endRetainExit_pool (s : State) : s.endRetainExit.pool = s.pool := rfl
@[simp] theorem State.endRetainExit_staging (s : State) :
    s.endRetainExit.staging = s.staging := rfl
@[simp] theorem State.endRetainExit_table (s : State) : s.endRetainExit.table = s.table := rfl
@[simp] theorem State.endRetainExit_capture (s : State) :
    s.endRetainExit.capture = s.capture := rfl
@[simp] theorem State.endRetainExit_setup (s : State) : s.endRetainExit.setup = s.setup := rfl
@[simp] theorem State.endRetainExit_array (s : State) : s.endRetainExit.array = s.array := rfl
@[simp] theorem State.endRetainExit_resetLow (s : State) :
    s.endRetainExit.resetLow = s.resetLow := rfl
@[simp] theorem State.endRetainExit_port (s : State) : s.endRetainExit.port = s.port := rfl
@[simp] theorem State.endRetainExit_now (s : State) : s.endRetainExit.now = s.now := rfl
@[simp] theorem State.endRetainExit_draws (s : State) : s.endRetainExit.draws = s.draws := rfl
@[simp] theorem State.endRetainExit_pending (s : State) :
    s.endRetainExit.pending = s.pending := rfl

@[simp] theorem State.beginExit_bus (s : State) : s.beginExit.bus = s.bus := rfl
@[simp] theorem State.beginExit_pool (s : State) : s.beginExit.pool = s.pool := rfl
@[simp] theorem State.beginExit_staging (s : State) : s.beginExit.staging = s.staging := rfl
@[simp] theorem State.beginExit_events (s : State) : s.beginExit.events = s.events := rfl
@[simp] theorem State.beginExit_table (s : State) : s.beginExit.table = s.table := rfl
@[simp] theorem State.beginExit_refresh (s : State) : s.beginExit.refresh = s.refresh := rfl
@[simp] theorem State.beginExit_capture (s : State) : s.beginExit.capture = s.capture := rfl
@[simp] theorem State.beginExit_array (s : State) : s.beginExit.array = s.array := rfl
@[simp] theorem State.beginExit_resetLow (s : State) : s.beginExit.resetLow = s.resetLow := rfl
@[simp] theorem State.beginExit_draws (s : State) : s.beginExit.draws = s.draws := rfl
@[simp] theorem State.beginExit_pending (s : State) : s.beginExit.pending = s.pending := rfl

@[simp] theorem State.loadMode_bus (s : State) (i : Fin 4) (v : Word) (t : Nat) :
    (s.loadMode i v t).bus = s.bus := rfl
@[simp] theorem State.loadMode_pool (s : State) (i : Fin 4) (v : Word) (t : Nat) :
    (s.loadMode i v t).pool = s.pool := rfl
@[simp] theorem State.loadMode_staging (s : State) (i : Fin 4) (v : Word) (t : Nat) :
    (s.loadMode i v t).staging = s.staging := rfl
@[simp] theorem State.loadMode_events (s : State) (i : Fin 4) (v : Word) (t : Nat) :
    (s.loadMode i v t).events = s.events := rfl
@[simp] theorem State.loadMode_sched (s : State) (i : Fin 4) (v : Word) (t : Nat) :
    (s.loadMode i v t).sched = s.sched := rfl
@[simp] theorem State.loadMode_refresh (s : State) (i : Fin 4) (v : Word) (t : Nat) :
    (s.loadMode i v t).refresh = s.refresh := rfl
@[simp] theorem State.loadMode_capture (s : State) (i : Fin 4) (v : Word) (t : Nat) :
    (s.loadMode i v t).capture = s.capture := rfl
@[simp] theorem State.loadMode_setup (s : State) (i : Fin 4) (v : Word) (t : Nat) :
    (s.loadMode i v t).setup = s.setup := rfl
@[simp] theorem State.loadMode_array (s : State) (i : Fin 4) (v : Word) (t : Nat) :
    (s.loadMode i v t).array = s.array := rfl
@[simp] theorem State.loadMode_resetLow (s : State) (i : Fin 4) (v : Word) (t : Nat) :
    (s.loadMode i v t).resetLow = s.resetLow := rfl
@[simp] theorem State.loadMode_draws (s : State) (i : Fin 4) (v : Word) (t : Nat) :
    (s.loadMode i v t).draws = s.draws := rfl
@[simp] theorem State.loadMode_pending (s : State) (i : Fin 4) (v : Word) (t : Nat) :
    (s.loadMode i v t).pending = s.pending := rfl

@[simp] theorem State.retire_bus (s : State) (r : Request) (c : Completion) :
    (s.retire r c).bus = s.bus := rfl
@[simp] theorem State.retire_sched (s : State) (r : Request) (c : Completion) :
    (s.retire r c).sched = s.sched := rfl
@[simp] theorem State.retire_table (s : State) (r : Request) (c : Completion) :
    (s.retire r c).table = s.table := rfl
@[simp] theorem State.retire_refresh (s : State) (r : Request) (c : Completion) :
    (s.retire r c).refresh = s.refresh := rfl
@[simp] theorem State.retire_capture (s : State) (r : Request) (c : Completion) :
    (s.retire r c).capture = s.capture := rfl
@[simp] theorem State.retire_setup (s : State) (r : Request) (c : Completion) :
    (s.retire r c).setup = s.setup := rfl
@[simp] theorem State.retire_ctrl (s : State) (r : Request) (c : Completion) :
    (s.retire r c).ctrl = s.ctrl := rfl
@[simp] theorem State.retire_array (s : State) (r : Request) (c : Completion) :
    (s.retire r c).array = s.array := rfl
@[simp] theorem State.retire_resetLow (s : State) (r : Request) (c : Completion) :
    (s.retire r c).resetLow = s.resetLow := rfl
@[simp] theorem State.retire_port (s : State) (r : Request) (c : Completion) :
    (s.retire r c).port = s.port := rfl
@[simp] theorem State.retire_now (s : State) (r : Request) (c : Completion) :
    (s.retire r c).now = s.now := rfl
@[simp] theorem State.retire_draws (s : State) (r : Request) (c : Completion) :
    (s.retire r c).draws = s.draws := rfl
@[simp] theorem State.retire_pending (s : State) (r : Request) (c : Completion) :
    (s.retire r c).pending = s.pending := rfl

@[simp] theorem State.finishActive_bus (s : State) (a : Active) (x : Result)
    (m : Option (Nat × Nat)) :
    (s.finishActive a x m).bus = s.bus := rfl
@[simp] theorem State.finishActive_sched (s : State) (a : Active) (x : Result)
    (m : Option (Nat × Nat)) :
    (s.finishActive a x m).sched = s.sched := rfl
@[simp] theorem State.finishActive_table (s : State) (a : Active) (x : Result)
    (m : Option (Nat × Nat)) :
    (s.finishActive a x m).table = s.table := rfl
@[simp] theorem State.finishActive_refresh (s : State) (a : Active) (x : Result)
    (m : Option (Nat × Nat)) :
    (s.finishActive a x m).refresh = s.refresh := rfl
@[simp] theorem State.finishActive_capture (s : State) (a : Active) (x : Result)
    (m : Option (Nat × Nat)) :
    (s.finishActive a x m).capture = s.capture := rfl
@[simp] theorem State.finishActive_setup (s : State) (a : Active) (x : Result)
    (m : Option (Nat × Nat)) :
    (s.finishActive a x m).setup = s.setup := rfl
@[simp] theorem State.finishActive_ctrl (s : State) (a : Active) (x : Result)
    (m : Option (Nat × Nat)) :
    (s.finishActive a x m).ctrl = s.ctrl := rfl
@[simp] theorem State.finishActive_array (s : State) (a : Active) (x : Result)
    (m : Option (Nat × Nat)) :
    (s.finishActive a x m).array = s.array := rfl
@[simp] theorem State.finishActive_resetLow (s : State) (a : Active) (x : Result)
    (m : Option (Nat × Nat)) :
    (s.finishActive a x m).resetLow = s.resetLow := rfl
@[simp] theorem State.finishActive_port (s : State) (a : Active) (x : Result)
    (m : Option (Nat × Nat)) :
    (s.finishActive a x m).port = s.port := rfl
@[simp] theorem State.finishActive_now (s : State) (a : Active) (x : Result)
    (m : Option (Nat × Nat)) :
    (s.finishActive a x m).now = s.now := rfl
@[simp] theorem State.finishActive_draws (s : State) (a : Active) (x : Result)
    (m : Option (Nat × Nat)) :
    (s.finishActive a x m).draws = s.draws := rfl
@[simp] theorem State.finishActive_pending (s : State) (a : Active) (x : Result)
    (m : Option (Nat × Nat)) :
    (s.finishActive a x m).pending = s.pending := rfl

@[simp] theorem State.grant_bus (s : State) (j : Job) : (s.grant j).bus = s.bus := rfl
@[simp] theorem State.grant_pool (s : State) (j : Job) : (s.grant j).pool = s.pool := rfl
@[simp] theorem State.grant_staging (s : State) (j : Job) : (s.grant j).staging = s.staging := rfl
@[simp] theorem State.grant_events (s : State) (j : Job) : (s.grant j).events = s.events := rfl
@[simp] theorem State.grant_table (s : State) (j : Job) : (s.grant j).table = s.table := rfl
@[simp] theorem State.grant_refresh (s : State) (j : Job) : (s.grant j).refresh = s.refresh := rfl
@[simp] theorem State.grant_capture (s : State) (j : Job) : (s.grant j).capture = s.capture := rfl
@[simp] theorem State.grant_setup (s : State) (j : Job) : (s.grant j).setup = s.setup := rfl
@[simp] theorem State.grant_ctrl (s : State) (j : Job) : (s.grant j).ctrl = s.ctrl := rfl
@[simp] theorem State.grant_array (s : State) (j : Job) : (s.grant j).array = s.array := rfl
@[simp] theorem State.grant_resetLow (s : State) (j : Job) :
    (s.grant j).resetLow = s.resetLow := rfl
@[simp] theorem State.grant_port (s : State) (j : Job) : (s.grant j).port = s.port := rfl
@[simp] theorem State.grant_now (s : State) (j : Job) : (s.grant j).now = s.now := rfl
@[simp] theorem State.grant_draws (s : State) (j : Job) : (s.grant j).draws = s.draws := rfl
@[simp] theorem State.grant_pending (s : State) (j : Job) : (s.grant j).pending = s.pending := rfl

@[simp] theorem State.halt_bus (s : State) : s.halt.bus = s.bus := rfl
@[simp] theorem State.halt_pool (s : State) : s.halt.pool = s.pool := rfl
@[simp] theorem State.halt_staging (s : State) : s.halt.staging = s.staging := rfl
@[simp] theorem State.halt_events (s : State) : s.halt.events = s.events := rfl
@[simp] theorem State.halt_table (s : State) : s.halt.table = s.table := rfl
@[simp] theorem State.halt_refresh (s : State) : s.halt.refresh = s.refresh := rfl
@[simp] theorem State.halt_capture (s : State) : s.halt.capture = s.capture := rfl
@[simp] theorem State.halt_setup (s : State) : s.halt.setup = s.setup := rfl
@[simp] theorem State.halt_array (s : State) : s.halt.array = s.array := rfl
@[simp] theorem State.halt_resetLow (s : State) : s.halt.resetLow = s.resetLow := rfl
@[simp] theorem State.halt_port (s : State) : s.halt.port = s.port := rfl
@[simp] theorem State.halt_now (s : State) : s.halt.now = s.now := rfl
@[simp] theorem State.halt_draws (s : State) : s.halt.draws = s.draws := rfl
@[simp] theorem State.halt_pending (s : State) : s.halt.pending = s.pending := rfl

@[simp] theorem State.emptyHostSide_sched (s : State) : s.emptyHostSide.sched = s.sched := rfl
@[simp] theorem State.emptyHostSide_table (s : State) : s.emptyHostSide.table = s.table := rfl
@[simp] theorem State.emptyHostSide_refresh (s : State) :
    s.emptyHostSide.refresh = s.refresh := rfl
@[simp] theorem State.emptyHostSide_setup (s : State) : s.emptyHostSide.setup = s.setup := rfl
@[simp] theorem State.emptyHostSide_ctrl (s : State) : s.emptyHostSide.ctrl = s.ctrl := rfl
@[simp] theorem State.emptyHostSide_array (s : State) : s.emptyHostSide.array = s.array := rfl
@[simp] theorem State.emptyHostSide_resetLow (s : State) :
    s.emptyHostSide.resetLow = s.resetLow := rfl
@[simp] theorem State.emptyHostSide_port (s : State) : s.emptyHostSide.port = s.port := rfl
@[simp] theorem State.emptyHostSide_now (s : State) : s.emptyHostSide.now = s.now := rfl
@[simp] theorem State.emptyHostSide_draws (s : State) : s.emptyHostSide.draws = s.draws := rfl
@[simp] theorem State.emptyHostSide_pending (s : State) :
    s.emptyHostSide.pending = s.pending := rfl

@[simp] theorem State.returnToCold_bus (s : State) : s.returnToCold.bus = s.bus := rfl
@[simp] theorem State.returnToCold_pool (s : State) : s.returnToCold.pool = s.pool := rfl
@[simp] theorem State.returnToCold_staging (s : State) : s.returnToCold.staging = s.staging := rfl
@[simp] theorem State.returnToCold_events (s : State) : s.returnToCold.events = s.events := rfl
@[simp] theorem State.returnToCold_table (s : State) : s.returnToCold.table = s.table := rfl
@[simp] theorem State.returnToCold_refresh (s : State) : s.returnToCold.refresh = s.refresh := rfl
@[simp] theorem State.returnToCold_capture (s : State) : s.returnToCold.capture = s.capture := rfl
@[simp] theorem State.returnToCold_setup (s : State) : s.returnToCold.setup = s.setup := rfl
@[simp] theorem State.returnToCold_resetLow (s : State) :
    s.returnToCold.resetLow = s.resetLow := rfl
@[simp] theorem State.returnToCold_port (s : State) : s.returnToCold.port = s.port := rfl
@[simp] theorem State.returnToCold_now (s : State) : s.returnToCold.now = s.now := rfl
@[simp] theorem State.returnToCold_draws (s : State) : s.returnToCold.draws = s.draws := rfl
@[simp] theorem State.returnToCold_pending (s : State) : s.returnToCold.pending = s.pending := rfl

@[simp] theorem State.abandonRetain_bus (s : State) : s.abandonRetain.bus = s.bus := rfl
@[simp] theorem State.abandonRetain_pool (s : State) : s.abandonRetain.pool = s.pool := rfl
@[simp] theorem State.abandonRetain_staging (s : State) :
    s.abandonRetain.staging = s.staging := rfl
@[simp] theorem State.abandonRetain_events (s : State) : s.abandonRetain.events = s.events := rfl
@[simp] theorem State.abandonRetain_sched (s : State) : s.abandonRetain.sched = s.sched := rfl
@[simp] theorem State.abandonRetain_table (s : State) : s.abandonRetain.table = s.table := rfl
@[simp] theorem State.abandonRetain_refresh (s : State) :
    s.abandonRetain.refresh = s.refresh := rfl
@[simp] theorem State.abandonRetain_capture (s : State) :
    s.abandonRetain.capture = s.capture := rfl
@[simp] theorem State.abandonRetain_setup (s : State) : s.abandonRetain.setup = s.setup := rfl
@[simp] theorem State.abandonRetain_array (s : State) : s.abandonRetain.array = s.array := rfl
@[simp] theorem State.abandonRetain_resetLow (s : State) :
    s.abandonRetain.resetLow = s.resetLow := rfl
@[simp] theorem State.abandonRetain_port (s : State) : s.abandonRetain.port = s.port := rfl
@[simp] theorem State.abandonRetain_now (s : State) : s.abandonRetain.now = s.now := rfl
@[simp] theorem State.abandonRetain_draws (s : State) : s.abandonRetain.draws = s.draws := rfl
@[simp] theorem State.abandonRetain_pending (s : State) :
    s.abandonRetain.pending = s.pending := rfl

@[simp] theorem State.softResetCommand_pool (s : State) : s.softResetCommand.pool = s.pool := rfl
@[simp] theorem State.softResetCommand_staging (s : State) :
    s.softResetCommand.staging = s.staging := rfl
@[simp] theorem State.softResetCommand_events (s : State) :
    s.softResetCommand.events = s.events := rfl
@[simp] theorem State.softResetCommand_table (s : State) :
    s.softResetCommand.table = s.table := rfl
@[simp] theorem State.softResetCommand_refresh (s : State) :
    s.softResetCommand.refresh = s.refresh := rfl
@[simp] theorem State.softResetCommand_capture (s : State) :
    s.softResetCommand.capture = s.capture := rfl
@[simp] theorem State.softResetCommand_setup (s : State) :
    s.softResetCommand.setup = s.setup := rfl
@[simp] theorem State.softResetCommand_array (s : State) :
    s.softResetCommand.array = s.array := rfl
@[simp] theorem State.softResetCommand_resetLow (s : State) :
    s.softResetCommand.resetLow = s.resetLow := rfl
@[simp] theorem State.softResetCommand_port (s : State) : s.softResetCommand.port = s.port := rfl
@[simp] theorem State.softResetCommand_now (s : State) : s.softResetCommand.now = s.now := rfl
@[simp] theorem State.softResetCommand_draws (s : State) :
    s.softResetCommand.draws = s.draws := rfl
@[simp] theorem State.softResetCommand_pending (s : State) :
    s.softResetCommand.pending = s.pending := rfl

@[simp] theorem State.answer_pool (s : State) (code : BitVec 4) (o : CommandOutcome) :
    (s.answer code o).pool = s.pool := rfl
@[simp] theorem State.answer_staging (s : State) (code : BitVec 4) (o : CommandOutcome) :
    (s.answer code o).staging = s.staging := rfl
@[simp] theorem State.answer_events (s : State) (code : BitVec 4) (o : CommandOutcome) :
    (s.answer code o).events = s.events := rfl
@[simp] theorem State.answer_sched (s : State) (code : BitVec 4) (o : CommandOutcome) :
    (s.answer code o).sched = s.sched := rfl
@[simp] theorem State.answer_table (s : State) (code : BitVec 4) (o : CommandOutcome) :
    (s.answer code o).table = s.table := rfl
@[simp] theorem State.answer_refresh (s : State) (code : BitVec 4) (o : CommandOutcome) :
    (s.answer code o).refresh = s.refresh := rfl
@[simp] theorem State.answer_capture (s : State) (code : BitVec 4) (o : CommandOutcome) :
    (s.answer code o).capture = s.capture := rfl
@[simp] theorem State.answer_setup (s : State) (code : BitVec 4) (o : CommandOutcome) :
    (s.answer code o).setup = s.setup := rfl
@[simp] theorem State.answer_ctrl (s : State) (code : BitVec 4) (o : CommandOutcome) :
    (s.answer code o).ctrl = s.ctrl := rfl
@[simp] theorem State.answer_array (s : State) (code : BitVec 4) (o : CommandOutcome) :
    (s.answer code o).array = s.array := rfl
@[simp] theorem State.answer_resetLow (s : State) (code : BitVec 4) (o : CommandOutcome) :
    (s.answer code o).resetLow = s.resetLow := rfl
@[simp] theorem State.answer_port (s : State) (code : BitVec 4) (o : CommandOutcome) :
    (s.answer code o).port = s.port := rfl
@[simp] theorem State.answer_now (s : State) (code : BitVec 4) (o : CommandOutcome) :
    (s.answer code o).now = s.now := rfl
@[simp] theorem State.answer_draws (s : State) (code : BitVec 4) (o : CommandOutcome) :
    (s.answer code o).draws = s.draws := rfl
@[simp] theorem State.answer_pending (s : State) (code : BitVec 4) (o : CommandOutcome) :
    (s.answer code o).pending = s.pending := rfl

@[simp] theorem State.writeLands_bus (s : State) (x : Burst) (t : Nat) :
    (s.writeLands x t).bus = s.bus := rfl
@[simp] theorem State.writeLands_pool (s : State) (x : Burst) (t : Nat) :
    (s.writeLands x t).pool = s.pool := rfl
@[simp] theorem State.writeLands_staging (s : State) (x : Burst) (t : Nat) :
    (s.writeLands x t).staging = s.staging := rfl
@[simp] theorem State.writeLands_events (s : State) (x : Burst) (t : Nat) :
    (s.writeLands x t).events = s.events := rfl
@[simp] theorem State.writeLands_sched (s : State) (x : Burst) (t : Nat) :
    (s.writeLands x t).sched = s.sched := rfl
@[simp] theorem State.writeLands_refresh (s : State) (x : Burst) (t : Nat) :
    (s.writeLands x t).refresh = s.refresh := rfl
@[simp] theorem State.writeLands_capture (s : State) (x : Burst) (t : Nat) :
    (s.writeLands x t).capture = s.capture := rfl
@[simp] theorem State.writeLands_setup (s : State) (x : Burst) (t : Nat) :
    (s.writeLands x t).setup = s.setup := rfl
@[simp] theorem State.writeLands_ctrl (s : State) (x : Burst) (t : Nat) :
    (s.writeLands x t).ctrl = s.ctrl := rfl
@[simp] theorem State.writeLands_resetLow (s : State) (x : Burst) (t : Nat) :
    (s.writeLands x t).resetLow = s.resetLow := rfl
@[simp] theorem State.writeLands_port (s : State) (x : Burst) (t : Nat) :
    (s.writeLands x t).port = s.port := rfl
@[simp] theorem State.writeLands_now (s : State) (x : Burst) (t : Nat) :
    (s.writeLands x t).now = s.now := rfl
@[simp] theorem State.writeLands_draws (s : State) (x : Burst) (t : Nat) :
    (s.writeLands x t).draws = s.draws := rfl
@[simp] theorem State.writeLands_pending (s : State) (x : Burst) (t : Nat) :
    (s.writeLands x t).pending = s.pending := rfl

@[simp] theorem State.openRow_bus (s : State) (b : Fin 8) (row t : Nat) :
    (s.openRow b row t).bus = s.bus := rfl
@[simp] theorem State.openRow_pool (s : State) (b : Fin 8) (row t : Nat) :
    (s.openRow b row t).pool = s.pool := rfl
@[simp] theorem State.openRow_staging (s : State) (b : Fin 8) (row t : Nat) :
    (s.openRow b row t).staging = s.staging := rfl
@[simp] theorem State.openRow_events (s : State) (b : Fin 8) (row t : Nat) :
    (s.openRow b row t).events = s.events := rfl
@[simp] theorem State.openRow_sched (s : State) (b : Fin 8) (row t : Nat) :
    (s.openRow b row t).sched = s.sched := rfl
@[simp] theorem State.openRow_refresh (s : State) (b : Fin 8) (row t : Nat) :
    (s.openRow b row t).refresh = s.refresh := rfl
@[simp] theorem State.openRow_capture (s : State) (b : Fin 8) (row t : Nat) :
    (s.openRow b row t).capture = s.capture := rfl
@[simp] theorem State.openRow_setup (s : State) (b : Fin 8) (row t : Nat) :
    (s.openRow b row t).setup = s.setup := rfl
@[simp] theorem State.openRow_array (s : State) (b : Fin 8) (row t : Nat) :
    (s.openRow b row t).array = s.array := rfl
@[simp] theorem State.openRow_resetLow (s : State) (b : Fin 8) (row t : Nat) :
    (s.openRow b row t).resetLow = s.resetLow := rfl
@[simp] theorem State.openRow_draws (s : State) (b : Fin 8) (row t : Nat) :
    (s.openRow b row t).draws = s.draws := rfl
@[simp] theorem State.openRow_pending (s : State) (b : Fin 8) (row t : Nat) :
    (s.openRow b row t).pending = s.pending := rfl

@[simp] theorem State.shutRow_bus (s : State) (b : Fin 8) (t : Nat) :
    (s.shutRow b t).bus = s.bus := rfl
@[simp] theorem State.shutRow_pool (s : State) (b : Fin 8) (t : Nat) :
    (s.shutRow b t).pool = s.pool := rfl
@[simp] theorem State.shutRow_staging (s : State) (b : Fin 8) (t : Nat) :
    (s.shutRow b t).staging = s.staging := rfl
@[simp] theorem State.shutRow_events (s : State) (b : Fin 8) (t : Nat) :
    (s.shutRow b t).events = s.events := rfl
@[simp] theorem State.shutRow_refresh (s : State) (b : Fin 8) (t : Nat) :
    (s.shutRow b t).refresh = s.refresh := rfl
@[simp] theorem State.shutRow_capture (s : State) (b : Fin 8) (t : Nat) :
    (s.shutRow b t).capture = s.capture := rfl
@[simp] theorem State.shutRow_setup (s : State) (b : Fin 8) (t : Nat) :
    (s.shutRow b t).setup = s.setup := rfl
@[simp] theorem State.shutRow_array (s : State) (b : Fin 8) (t : Nat) :
    (s.shutRow b t).array = s.array := rfl
@[simp] theorem State.shutRow_resetLow (s : State) (b : Fin 8) (t : Nat) :
    (s.shutRow b t).resetLow = s.resetLow := rfl
@[simp] theorem State.shutRow_draws (s : State) (b : Fin 8) (t : Nat) :
    (s.shutRow b t).draws = s.draws := rfl
@[simp] theorem State.shutRow_pending (s : State) (b : Fin 8) (t : Nat) :
    (s.shutRow b t).pending = s.pending := rfl

@[simp] theorem State.issueRead_bus (s : State) (a : Active) (x : Block) (l t : Nat) :
    (s.issueRead a x l t).bus = s.bus := rfl
@[simp] theorem State.issueRead_staging (s : State) (a : Active) (x : Block) (l t : Nat) :
    (s.issueRead a x l t).staging = s.staging := rfl
@[simp] theorem State.issueRead_events (s : State) (a : Active) (x : Block) (l t : Nat) :
    (s.issueRead a x l t).events = s.events := rfl
@[simp] theorem State.issueRead_refresh (s : State) (a : Active) (x : Block) (l t : Nat) :
    (s.issueRead a x l t).refresh = s.refresh := rfl
@[simp] theorem State.issueRead_capture (s : State) (a : Active) (x : Block) (l t : Nat) :
    (s.issueRead a x l t).capture = s.capture := rfl
@[simp] theorem State.issueRead_setup (s : State) (a : Active) (x : Block) (l t : Nat) :
    (s.issueRead a x l t).setup = s.setup := rfl
@[simp] theorem State.issueRead_array (s : State) (a : Active) (x : Block) (l t : Nat) :
    (s.issueRead a x l t).array = s.array := rfl
@[simp] theorem State.issueRead_resetLow (s : State) (a : Active) (x : Block) (l t : Nat) :
    (s.issueRead a x l t).resetLow = s.resetLow := rfl
@[simp] theorem State.issueRead_draws (s : State) (a : Active) (x : Block) (l t : Nat) :
    (s.issueRead a x l t).draws = s.draws := rfl
@[simp] theorem State.issueRead_pending (s : State) (a : Active) (x : Block) (l t : Nat) :
    (s.issueRead a x l t).pending = s.pending := rfl

@[simp] theorem State.issueWrite_bus (s : State) (x : Block) (d : List Word) (u : BurstUser) (w t : Nat) :
    (s.issueWrite x d u w t).bus = s.bus := rfl
@[simp] theorem State.issueWrite_pool (s : State) (x : Block) (d : List Word) (u : BurstUser) (w t : Nat) :
    (s.issueWrite x d u w t).pool = s.pool := rfl
@[simp] theorem State.issueWrite_staging (s : State) (x : Block) (d : List Word) (u : BurstUser) (w t : Nat) :
    (s.issueWrite x d u w t).staging = s.staging := rfl
@[simp] theorem State.issueWrite_events (s : State) (x : Block) (d : List Word) (u : BurstUser) (w t : Nat) :
    (s.issueWrite x d u w t).events = s.events := rfl
@[simp] theorem State.issueWrite_refresh (s : State) (x : Block) (d : List Word) (u : BurstUser) (w t : Nat) :
    (s.issueWrite x d u w t).refresh = s.refresh := rfl
@[simp] theorem State.issueWrite_capture (s : State) (x : Block) (d : List Word) (u : BurstUser) (w t : Nat) :
    (s.issueWrite x d u w t).capture = s.capture := rfl
@[simp] theorem State.issueWrite_setup (s : State) (x : Block) (d : List Word) (u : BurstUser) (w t : Nat) :
    (s.issueWrite x d u w t).setup = s.setup := rfl
@[simp] theorem State.issueWrite_array (s : State) (x : Block) (d : List Word) (u : BurstUser) (w t : Nat) :
    (s.issueWrite x d u w t).array = s.array := rfl
@[simp] theorem State.issueWrite_resetLow (s : State) (x : Block) (d : List Word) (u : BurstUser) (w t : Nat) :
    (s.issueWrite x d u w t).resetLow = s.resetLow := rfl
@[simp] theorem State.issueWrite_draws (s : State) (x : Block) (d : List Word) (u : BurstUser) (w t : Nat) :
    (s.issueWrite x d u w t).draws = s.draws := rfl
@[simp] theorem State.issueWrite_pending (s : State) (x : Block) (d : List Word) (u : BurstUser) (w t : Nat) :
    (s.issueWrite x d u w t).pending = s.pending := rfl

/-- What `wakeCause` leaves as it was. -/
@[simp] theorem State.wakeCause_frame (s : State) :
    s.wakeCause.bus = s.bus ∧ s.wakeCause.pool = s.pool ∧ s.wakeCause.staging = s.staging ∧
    s.wakeCause.events = s.events ∧ s.wakeCause.table = s.table ∧
    s.wakeCause.refresh = s.refresh ∧ s.wakeCause.capture = s.capture ∧
    s.wakeCause.setup = s.setup ∧ s.wakeCause.array = s.array ∧
    s.wakeCause.resetLow = s.resetLow ∧ s.wakeCause.draws = s.draws ∧
    s.wakeCause.pending = s.pending := by
  unfold State.wakeCause
  (repeat' split) <;> simp

/-- What `demandCause` leaves as it was. -/
@[simp] theorem State.demandCause_frame (s : State) :
    s.demandCause.bus = s.bus ∧ s.demandCause.pool = s.pool ∧
    s.demandCause.staging = s.staging ∧ s.demandCause.events = s.events ∧
    s.demandCause.table = s.table ∧ s.demandCause.refresh = s.refresh ∧
    s.demandCause.capture = s.capture ∧ s.demandCause.setup = s.setup ∧
    s.demandCause.array = s.array ∧ s.demandCause.resetLow = s.resetLow ∧
    s.demandCause.draws = s.draws ∧ s.demandCause.pending = s.pending := by
  unfold State.demandCause
  (repeat' split) <;> simp

/-- What `suspendForRefresh` leaves as it was. -/
@[simp] theorem State.suspendForRefresh_frame (s : State) :
    s.suspendForRefresh.bus = s.bus ∧ s.suspendForRefresh.pool = s.pool ∧
    s.suspendForRefresh.staging = s.staging ∧ s.suspendForRefresh.events = s.events ∧
    s.suspendForRefresh.sched = s.sched ∧ s.suspendForRefresh.table = s.table ∧
    s.suspendForRefresh.refresh = s.refresh ∧ s.suspendForRefresh.capture = s.capture ∧
    s.suspendForRefresh.setup = s.setup ∧ s.suspendForRefresh.array = s.array ∧
    s.suspendForRefresh.resetLow = s.resetLow ∧ s.suspendForRefresh.port = s.port ∧
    s.suspendForRefresh.now = s.now ∧ s.suspendForRefresh.draws = s.draws ∧
    s.suspendForRefresh.pending = s.pending := by
  unfold State.suspendForRefresh
  (repeat' split) <;> simp

/-- What `nextProbe` leaves as it was. -/
@[simp] theorem State.nextProbe_frame (s : State) :
    s.nextProbe.bus = s.bus ∧ s.nextProbe.pool = s.pool ∧ s.nextProbe.staging = s.staging ∧
    s.nextProbe.events = s.events ∧ s.nextProbe.sched = s.sched ∧ s.nextProbe.table = s.table ∧
    s.nextProbe.refresh = s.refresh ∧ s.nextProbe.capture = s.capture ∧
    s.nextProbe.setup = s.setup ∧ s.nextProbe.array = s.array ∧
    s.nextProbe.resetLow = s.resetLow ∧ s.nextProbe.port = s.port ∧ s.nextProbe.now = s.now ∧
    s.nextProbe.draws = s.draws ∧ s.nextProbe.pending = s.pending := by
  unfold State.nextProbe
  (repeat' split) <;> simp

/-- What `urgentCause` leaves as it was. -/
@[simp] theorem State.urgentCause_frame (s : State) :
    s.urgentCause.bus = s.bus ∧ s.urgentCause.pool = s.pool ∧
    s.urgentCause.staging = s.staging ∧ s.urgentCause.events = s.events ∧
    s.urgentCause.table = s.table ∧ s.urgentCause.refresh = s.refresh ∧
    s.urgentCause.capture = s.capture ∧ s.urgentCause.setup = s.setup ∧
    s.urgentCause.array = s.array ∧ s.urgentCause.resetLow = s.resetLow ∧
    s.urgentCause.draws = s.draws ∧ s.urgentCause.pending = s.pending := by
  unfold State.urgentCause
  (repeat' split) <;> simp

/-- What `lookAtRefresh` leaves as it was. -/
@[simp] theorem State.lookAtRefresh_frame (s : State) :
    s.lookAtRefresh.bus = s.bus ∧ s.lookAtRefresh.pool = s.pool ∧
    s.lookAtRefresh.staging = s.staging ∧ s.lookAtRefresh.events = s.events ∧
    s.lookAtRefresh.sched = s.sched ∧ s.lookAtRefresh.table = s.table ∧
    s.lookAtRefresh.refresh = s.refresh ∧ s.lookAtRefresh.capture = s.capture ∧
    s.lookAtRefresh.setup = s.setup ∧ s.lookAtRefresh.array = s.array ∧
    s.lookAtRefresh.resetLow = s.resetLow ∧ s.lookAtRefresh.port = s.port ∧
    s.lookAtRefresh.now = s.now ∧ s.lookAtRefresh.draws = s.draws ∧
    s.lookAtRefresh.pending = s.pending := by
  unfold State.lookAtRefresh
  (repeat' split) <;> simp

/-- What `endSetModeIfNothingToLoad` leaves as it was. -/
@[simp] theorem State.endSetModeIfNothingToLoad_frame (s : State) :
    s.endSetModeIfNothingToLoad.bus = s.bus ∧ s.endSetModeIfNothingToLoad.pool = s.pool ∧
    s.endSetModeIfNothingToLoad.staging = s.staging ∧
    s.endSetModeIfNothingToLoad.table = s.table ∧
    s.endSetModeIfNothingToLoad.refresh = s.refresh ∧
    s.endSetModeIfNothingToLoad.capture = s.capture ∧
    s.endSetModeIfNothingToLoad.setup = s.setup ∧ s.endSetModeIfNothingToLoad.array = s.array ∧
    s.endSetModeIfNothingToLoad.resetLow = s.resetLow ∧
    s.endSetModeIfNothingToLoad.port = s.port ∧ s.endSetModeIfNothingToLoad.now = s.now ∧
    s.endSetModeIfNothingToLoad.draws = s.draws ∧
    s.endSetModeIfNothingToLoad.pending = s.pending := by
  unfold State.endSetModeIfNothingToLoad
  (repeat' split) <;> simp

/-- What `endRestore` leaves as it was. -/
@[simp] theorem State.endRestore_frame (s : State) :
    s.endRestore.bus = s.bus ∧ s.endRestore.pool = s.pool ∧ s.endRestore.staging = s.staging ∧
    s.endRestore.events = s.events ∧ s.endRestore.table = s.table ∧
    s.endRestore.refresh = s.refresh ∧ s.endRestore.capture = s.capture ∧
    s.endRestore.setup = s.setup ∧ s.endRestore.array = s.array ∧
    s.endRestore.resetLow = s.resetLow ∧ s.endRestore.port = s.port ∧ s.endRestore.now = s.now ∧
    s.endRestore.draws = s.draws ∧ s.endRestore.pending = s.pending := by
  unfold State.endRestore
  (repeat' split) <;> simp

/-- What `proceed` leaves as it was. -/
@[simp] theorem State.proceed_frame (s : State) :
    s.proceed.bus = s.bus ∧ s.proceed.pool = s.pool ∧ s.proceed.staging = s.staging ∧
    s.proceed.table = s.table ∧ s.proceed.refresh = s.refresh ∧ s.proceed.capture = s.capture ∧
    s.proceed.setup = s.setup ∧ s.proceed.array = s.array ∧ s.proceed.resetLow = s.resetLow ∧
    s.proceed.port = s.port ∧ s.proceed.now = s.now ∧ s.proceed.draws = s.draws ∧
    s.proceed.pending = s.pending := by
  simp [State.proceed]

/-- What `segmentDecision` leaves as it was. -/
@[simp] theorem State.segmentDecision_frame (s : State) (c : CloseOption) (b : Fin 8) (row : Nat) (n : Option Segment) :
    (s.segmentDecision c b row n).bus = s.bus ∧ (s.segmentDecision c b row n).pool = s.pool ∧
    (s.segmentDecision c b row n).staging = s.staging ∧
    (s.segmentDecision c b row n).events = s.events ∧
    (s.segmentDecision c b row n).sched = s.sched ∧
    (s.segmentDecision c b row n).refresh = s.refresh ∧
    (s.segmentDecision c b row n).capture = s.capture ∧
    (s.segmentDecision c b row n).setup = s.setup ∧
    (s.segmentDecision c b row n).ctrl = s.ctrl ∧
    (s.segmentDecision c b row n).array = s.array ∧
    (s.segmentDecision c b row n).resetLow = s.resetLow ∧
    (s.segmentDecision c b row n).port = s.port ∧ (s.segmentDecision c b row n).now = s.now ∧
    (s.segmentDecision c b row n).draws = s.draws ∧
    (s.segmentDecision c b row n).pending = s.pending := by
  unfold State.segmentDecision
  (repeat' split) <;> simp

/-- What `chunkDecision` leaves as it was. -/
@[simp] theorem State.chunkDecision_frame (s : State) (b : Fin 8) (row : Nat) :
    (s.chunkDecision b row).bus = s.bus ∧ (s.chunkDecision b row).pool = s.pool ∧
    (s.chunkDecision b row).staging = s.staging ∧ (s.chunkDecision b row).events = s.events ∧
    (s.chunkDecision b row).sched = s.sched ∧ (s.chunkDecision b row).refresh = s.refresh ∧
    (s.chunkDecision b row).capture = s.capture ∧ (s.chunkDecision b row).setup = s.setup ∧
    (s.chunkDecision b row).ctrl = s.ctrl ∧ (s.chunkDecision b row).array = s.array ∧
    (s.chunkDecision b row).resetLow = s.resetLow ∧ (s.chunkDecision b row).port = s.port ∧
    (s.chunkDecision b row).now = s.now ∧ (s.chunkDecision b row).draws = s.draws ∧
    (s.chunkDecision b row).pending = s.pending := by
  unfold State.chunkDecision
  (repeat' split) <;> simp

/-- What `endHeldBurst` leaves as it was. -/
@[simp] theorem State.endHeldBurst_frame (s : State) :
    s.endHeldBurst.bus = s.bus ∧ s.endHeldBurst.pool = s.pool ∧
    s.endHeldBurst.staging = s.staging ∧ s.endHeldBurst.events = s.events ∧
    s.endHeldBurst.table = s.table ∧ s.endHeldBurst.refresh = s.refresh ∧
    s.endHeldBurst.capture = s.capture ∧ s.endHeldBurst.setup = s.setup ∧
    s.endHeldBurst.ctrl = s.ctrl ∧ s.endHeldBurst.array = s.array ∧
    s.endHeldBurst.resetLow = s.resetLow ∧ s.endHeldBurst.port = s.port ∧
    s.endHeldBurst.now = s.now ∧ s.endHeldBurst.draws = s.draws ∧
    s.endHeldBurst.pending = s.pending := by
  unfold State.endHeldBurst
  (repeat' split) <;> simp

/-- What `accept` leaves as it was. -/
@[simp] theorem State.accept_frame (s : State) (r : Request) :
    (s.accept r).events = s.events ∧ (s.accept r).table = s.table ∧
    (s.accept r).refresh = s.refresh ∧ (s.accept r).capture = s.capture ∧
    (s.accept r).setup = s.setup ∧ (s.accept r).array = s.array ∧
    (s.accept r).resetLow = s.resetLow ∧ (s.accept r).draws = s.draws ∧
    (s.accept r).pending = s.pending := by
  simp [State.accept]

/-- What `abortActive` leaves as it was. -/
@[simp] theorem State.abortActive_frame (s : State) :
    s.abortActive.bus = s.bus ∧ s.abortActive.table = s.table ∧
    s.abortActive.refresh = s.refresh ∧ s.abortActive.capture = s.capture ∧
    s.abortActive.setup = s.setup ∧ s.abortActive.ctrl = s.ctrl ∧
    s.abortActive.array = s.array ∧ s.abortActive.resetLow = s.resetLow ∧
    s.abortActive.port = s.port ∧ s.abortActive.now = s.now ∧ s.abortActive.draws = s.draws ∧
    s.abortActive.pending = s.pending := by
  unfold State.abortActive
  (repeat' split) <;> simp

/-- What `softResetArray` leaves as it was. -/
@[simp] theorem State.softResetArray_frame (s : State) :
    s.softResetArray.bus = s.bus ∧ s.softResetArray.pool = s.pool ∧
    s.softResetArray.staging = s.staging ∧ s.softResetArray.events = s.events ∧
    s.softResetArray.table = s.table ∧ s.softResetArray.refresh = s.refresh ∧
    s.softResetArray.capture = s.capture ∧ s.softResetArray.setup = s.setup ∧
    s.softResetArray.resetLow = s.resetLow ∧ s.softResetArray.port = s.port ∧
    s.softResetArray.now = s.now ∧ s.softResetArray.draws = s.draws ∧
    s.softResetArray.pending = s.pending := by
  unfold State.softResetArray
  (repeat' split) <;> simp

/-- What `softResetEffect` leaves as it was. -/
@[simp] theorem State.softResetEffect_frame (s : State) :
    s.softResetEffect.table = s.table ∧ s.softResetEffect.refresh = s.refresh ∧
    s.softResetEffect.setup = s.setup ∧ s.softResetEffect.resetLow = s.resetLow ∧
    s.softResetEffect.port = s.port ∧ s.softResetEffect.now = s.now ∧
    s.softResetEffect.draws = s.draws ∧ s.softResetEffect.pending = s.pending := by
  simp [State.softResetEffect]

/-- What `offer` leaves as it was. -/
@[simp] theorem State.offer_frame (s : State) (w : Word) :
    (s.offer w).bus = s.bus ∧ (s.offer w).pool = s.pool ∧ (s.offer w).staging = s.staging ∧
    (s.offer w).table = s.table ∧ (s.offer w).refresh = s.refresh ∧
    (s.offer w).setup = s.setup ∧ (s.offer w).array = s.array ∧
    (s.offer w).resetLow = s.resetLow ∧ (s.offer w).draws = s.draws ∧
    (s.offer w).pending = s.pending := by
  unfold State.offer
  (repeat' split) <;> simp

/-- What `countPeriod` leaves as it was. -/
@[simp] theorem State.countPeriod_frame (s : State) :
    s.countPeriod.bus = s.bus ∧ s.countPeriod.pool = s.pool ∧
    s.countPeriod.staging = s.staging ∧ s.countPeriod.table = s.table ∧
    s.countPeriod.capture = s.capture ∧ s.countPeriod.setup = s.setup ∧
    s.countPeriod.ctrl = s.ctrl ∧ s.countPeriod.resetLow = s.resetLow ∧
    s.countPeriod.port = s.port ∧ s.countPeriod.now = s.now ∧ s.countPeriod.draws = s.draws ∧
    s.countPeriod.pending = s.pending := by
  unfold State.countPeriod
  (repeat' split) <;> simp

/-- What `afterWake` leaves as it was. -/
@[simp] theorem State.afterWake_frame (s : State) :
    s.afterWake.bus = s.bus ∧ s.afterWake.pool = s.pool ∧ s.afterWake.staging = s.staging ∧
    s.afterWake.events = s.events ∧ s.afterWake.sched = s.sched ∧ s.afterWake.table = s.table ∧
    s.afterWake.refresh = s.refresh ∧ s.afterWake.capture = s.capture ∧
    s.afterWake.setup = s.setup ∧ s.afterWake.array = s.array ∧
    s.afterWake.resetLow = s.resetLow ∧ s.afterWake.port = s.port ∧ s.afterWake.now = s.now ∧
    s.afterWake.draws = s.draws ∧ s.afterWake.pending = s.pending := by
  unfold State.afterWake
  (repeat' split) <;> simp

/-- What `loadsSettled` leaves as it was. -/
@[simp] theorem State.loadsSettled_frame (s : State) :
    s.loadsSettled.bus = s.bus ∧ s.loadsSettled.pool = s.pool ∧
    s.loadsSettled.staging = s.staging ∧ s.loadsSettled.table = s.table ∧
    s.loadsSettled.refresh = s.refresh ∧ s.loadsSettled.capture = s.capture ∧
    s.loadsSettled.setup = s.setup ∧ s.loadsSettled.array = s.array ∧
    s.loadsSettled.resetLow = s.resetLow ∧ s.loadsSettled.port = s.port ∧
    s.loadsSettled.now = s.now ∧ s.loadsSettled.draws = s.draws ∧
    s.loadsSettled.pending = s.pending := by
  unfold State.loadsSettled
  (repeat' split) <;> simp

/-- What `endAlignment` leaves as it was. -/
@[simp] theorem State.endAlignment_frame (s : State) :
    s.endAlignment.bus = s.bus ∧ s.endAlignment.pool = s.pool ∧
    s.endAlignment.staging = s.staging ∧ s.endAlignment.table = s.table ∧
    s.endAlignment.capture = s.capture ∧ s.endAlignment.setup = s.setup ∧
    s.endAlignment.array = s.array ∧ s.endAlignment.resetLow = s.resetLow ∧
    s.endAlignment.port = s.port ∧ s.endAlignment.now = s.now ∧ s.endAlignment.draws = s.draws ∧
    s.endAlignment.pending = s.pending := by
  unfold State.endAlignment
  (repeat' split) <;> simp

/-- What `afterSettle` leaves as it was. -/
@[simp] theorem State.afterSettle_frame (s : State) :
    s.afterSettle.bus = s.bus ∧ s.afterSettle.pool = s.pool ∧
    s.afterSettle.staging = s.staging ∧ s.afterSettle.table = s.table ∧
    s.afterSettle.capture = s.capture ∧ s.afterSettle.setup = s.setup ∧
    s.afterSettle.array = s.array ∧ s.afterSettle.resetLow = s.resetLow ∧
    s.afterSettle.port = s.port ∧ s.afterSettle.now = s.now ∧ s.afterSettle.draws = s.draws ∧
    s.afterSettle.pending = s.pending := by
  unfold State.afterSettle
  (repeat' split) <;> simp

/-- What `lockRestartStep` leaves as it was. -/
@[simp] theorem State.lockRestartStep_frame (s : State) :
    s.lockRestartStep.bus = s.bus ∧ s.lockRestartStep.pool = s.pool ∧
    s.lockRestartStep.staging = s.staging ∧ s.lockRestartStep.events = s.events ∧
    s.lockRestartStep.sched = s.sched ∧ s.lockRestartStep.refresh = s.refresh ∧
    s.lockRestartStep.capture = s.capture ∧ s.lockRestartStep.setup = s.setup ∧
    s.lockRestartStep.array = s.array ∧ s.lockRestartStep.resetLow = s.resetLow ∧
    s.lockRestartStep.draws = s.draws ∧ s.lockRestartStep.pending = s.pending := by
  simp only [State.lockRestartStep]
  cases h : State.dueLoad _ <;> simp

/-- What `storeRequested` leaves as it was. -/
@[simp] theorem State.storeRequested_frame (s : State) (r : Request) (x : Burst) :
    (s.storeRequested r x).bus = s.bus ∧ (s.storeRequested r x).pool = s.pool ∧
    (s.storeRequested r x).events = s.events ∧ (s.storeRequested r x).sched = s.sched ∧
    (s.storeRequested r x).table = s.table ∧ (s.storeRequested r x).refresh = s.refresh ∧
    (s.storeRequested r x).capture = s.capture ∧ (s.storeRequested r x).setup = s.setup ∧
    (s.storeRequested r x).ctrl = s.ctrl ∧ (s.storeRequested r x).array = s.array ∧
    (s.storeRequested r x).resetLow = s.resetLow ∧ (s.storeRequested r x).port = s.port ∧
    (s.storeRequested r x).now = s.now ∧ (s.storeRequested r x).draws = s.draws ∧
    (s.storeRequested r x).pending = s.pending := by
  unfold State.storeRequested
  (repeat' split) <;> simp

/-- What `segmentEnd` leaves as it was. -/
@[simp] theorem State.segmentEnd_frame (s : State) (a : Active) (x : Burst) :
    (s.segmentEnd a x).bus = s.bus ∧ (s.segmentEnd a x).pool = s.pool ∧
    (s.segmentEnd a x).staging = s.staging ∧ (s.segmentEnd a x).events = s.events ∧
    (s.segmentEnd a x).sched = s.sched ∧ (s.segmentEnd a x).refresh = s.refresh ∧
    (s.segmentEnd a x).capture = s.capture ∧ (s.segmentEnd a x).setup = s.setup ∧
    (s.segmentEnd a x).ctrl = s.ctrl ∧ (s.segmentEnd a x).array = s.array ∧
    (s.segmentEnd a x).resetLow = s.resetLow ∧ (s.segmentEnd a x).port = s.port ∧
    (s.segmentEnd a x).now = s.now ∧ (s.segmentEnd a x).draws = s.draws ∧
    (s.segmentEnd a x).pending = s.pending := by
  unfold State.segmentEnd
  (repeat' split) <;> simp

/-- What `finishIfLast` leaves as it was. -/
@[simp] theorem State.finishIfLast_frame (s : State) (a : Active) :
    (s.finishIfLast a).bus = s.bus ∧ (s.finishIfLast a).sched = s.sched ∧
    (s.finishIfLast a).table = s.table ∧ (s.finishIfLast a).refresh = s.refresh ∧
    (s.finishIfLast a).capture = s.capture ∧ (s.finishIfLast a).setup = s.setup ∧
    (s.finishIfLast a).ctrl = s.ctrl ∧ (s.finishIfLast a).array = s.array ∧
    (s.finishIfLast a).resetLow = s.resetLow ∧ (s.finishIfLast a).port = s.port ∧
    (s.finishIfLast a).now = s.now ∧ (s.finishIfLast a).draws = s.draws ∧
    (s.finishIfLast a).pending = s.pending := by
  unfold State.finishIfLast
  (repeat' split) <;> simp

/-- What `completeForRecord` leaves as it was. -/
@[simp] theorem State.completeForRecord_frame (s : State) (x : Burst) :
    (s.completeForRecord x).bus = s.bus ∧ (s.completeForRecord x).sched = s.sched ∧
    (s.completeForRecord x).refresh = s.refresh ∧ (s.completeForRecord x).capture = s.capture ∧
    (s.completeForRecord x).setup = s.setup ∧ (s.completeForRecord x).ctrl = s.ctrl ∧
    (s.completeForRecord x).array = s.array ∧ (s.completeForRecord x).resetLow = s.resetLow ∧
    (s.completeForRecord x).port = s.port ∧ (s.completeForRecord x).now = s.now ∧
    (s.completeForRecord x).draws = s.draws ∧ (s.completeForRecord x).pending = s.pending := by
  unfold State.completeForRecord
  (repeat' split) <;> simp

/-- What `completeWrite` leaves as it was. -/
@[simp] theorem State.completeWrite_frame (s : State) (x : Burst) :
    (s.completeWrite x).bus = s.bus ∧ (s.completeWrite x).sched = s.sched ∧
    (s.completeWrite x).refresh = s.refresh ∧ (s.completeWrite x).capture = s.capture ∧
    (s.completeWrite x).setup = s.setup ∧ (s.completeWrite x).ctrl = s.ctrl ∧
    (s.completeWrite x).array = s.array ∧ (s.completeWrite x).resetLow = s.resetLow ∧
    (s.completeWrite x).port = s.port ∧ (s.completeWrite x).now = s.now ∧
    (s.completeWrite x).draws = s.draws ∧ (s.completeWrite x).pending = s.pending := by
  unfold State.completeWrite
  (repeat' split) <;> simp

/-- What `select` leaves as it was. -/
@[simp] theorem State.select_frame (s : State) :
    s.select.bus = s.bus ∧ s.select.staging = s.staging ∧ s.select.events = s.events ∧
    s.select.table = s.table ∧ s.select.refresh = s.refresh ∧ s.select.capture = s.capture ∧
    s.select.setup = s.setup ∧ s.select.ctrl = s.ctrl ∧ s.select.array = s.array ∧
    s.select.resetLow = s.resetLow ∧ s.select.port = s.port ∧ s.select.now = s.now ∧
    s.select.draws = s.draws ∧ s.select.pending = s.pending := by
  unfold State.select
  (repeat' split) <;> simp

/-- What `endRunIfEmpty` leaves as it was. -/
@[simp] theorem State.endRunIfEmpty_frame (s : State) :
    s.endRunIfEmpty.bus = s.bus ∧ s.endRunIfEmpty.pool = s.pool ∧
    s.endRunIfEmpty.staging = s.staging ∧ s.endRunIfEmpty.sched = s.sched ∧
    s.endRunIfEmpty.table = s.table ∧ s.endRunIfEmpty.refresh = s.refresh ∧
    s.endRunIfEmpty.setup = s.setup ∧ s.endRunIfEmpty.ctrl = s.ctrl ∧
    s.endRunIfEmpty.array = s.array ∧ s.endRunIfEmpty.resetLow = s.resetLow ∧
    s.endRunIfEmpty.port = s.port ∧ s.endRunIfEmpty.now = s.now ∧
    s.endRunIfEmpty.draws = s.draws ∧ s.endRunIfEmpty.pending = s.pending := by
  unfold State.endRunIfEmpty
  (repeat' split) <;> simp

/-- What `markIfReached` leaves as it was. -/
@[simp] theorem State.markIfReached_frame (s : State) :
    s.markIfReached.bus = s.bus ∧ s.markIfReached.pool = s.pool ∧
    s.markIfReached.staging = s.staging ∧ s.markIfReached.sched = s.sched ∧
    s.markIfReached.table = s.table ∧ s.markIfReached.refresh = s.refresh ∧
    s.markIfReached.capture = s.capture ∧ s.markIfReached.setup = s.setup ∧
    s.markIfReached.ctrl = s.ctrl ∧ s.markIfReached.array = s.array ∧
    s.markIfReached.resetLow = s.resetLow ∧ s.markIfReached.port = s.port ∧
    s.markIfReached.now = s.now ∧ s.markIfReached.draws = s.draws ∧
    s.markIfReached.pending = s.pending := by
  unfold State.markIfReached
  (repeat' split) <;> simp

/-- What `chunkAdvance` leaves as it was. -/
@[simp] theorem State.chunkAdvance_frame (s : State) :
    s.chunkAdvance.bus = s.bus ∧ s.chunkAdvance.pool = s.pool ∧
    s.chunkAdvance.staging = s.staging ∧ s.chunkAdvance.table = s.table ∧
    s.chunkAdvance.refresh = s.refresh ∧ s.chunkAdvance.setup = s.setup ∧
    s.chunkAdvance.ctrl = s.ctrl ∧ s.chunkAdvance.array = s.array ∧
    s.chunkAdvance.resetLow = s.resetLow ∧ s.chunkAdvance.port = s.port ∧
    s.chunkAdvance.now = s.now ∧ s.chunkAdvance.draws = s.draws ∧
    s.chunkAdvance.pending = s.pending := by
  simp [State.chunkAdvance]

/-- What `afterWrite` leaves as it was. -/
@[simp] theorem State.afterWrite_frame (s : State) (x : Block) (u : BurstUser) :
    (s.afterWrite x u).bus = s.bus ∧ (s.afterWrite x u).staging = s.staging ∧
    (s.afterWrite x u).table = s.table ∧ (s.afterWrite x u).refresh = s.refresh ∧
    (s.afterWrite x u).setup = s.setup ∧ (s.afterWrite x u).ctrl = s.ctrl ∧
    (s.afterWrite x u).array = s.array ∧ (s.afterWrite x u).resetLow = s.resetLow ∧
    (s.afterWrite x u).port = s.port ∧ (s.afterWrite x u).now = s.now ∧
    (s.afterWrite x u).draws = s.draws ∧ (s.afterWrite x u).pending = s.pending := by
  unfold State.afterWrite
  (repeat' split) <;> simp

/-- What `afterRenew` leaves as it was. -/
@[simp] theorem State.afterRenew_frame (s : State) :
    s.afterRenew.bus = s.bus ∧ s.afterRenew.pool = s.pool ∧ s.afterRenew.staging = s.staging ∧
    s.afterRenew.events = s.events ∧ s.afterRenew.table = s.table ∧
    s.afterRenew.refresh = s.refresh ∧ s.afterRenew.capture = s.capture ∧
    s.afterRenew.setup = s.setup ∧ s.afterRenew.array = s.array ∧
    s.afterRenew.resetLow = s.resetLow ∧ s.afterRenew.port = s.port ∧ s.afterRenew.now = s.now ∧
    s.afterRenew.draws = s.draws ∧ s.afterRenew.pending = s.pending := by
  unfold State.afterRenew
  (repeat' split) <;> simp

/-- What `askForArray` leaves as it was. -/
@[simp] theorem State.askForArray_frame (s : State) (d : Drain) :
    (s.askForArray d).bus = s.bus ∧ (s.askForArray d).pool = s.pool ∧
    (s.askForArray d).staging = s.staging ∧ (s.askForArray d).events = s.events ∧
    (s.askForArray d).table = s.table ∧ (s.askForArray d).refresh = s.refresh ∧
    (s.askForArray d).capture = s.capture ∧ (s.askForArray d).setup = s.setup ∧
    (s.askForArray d).array = s.array ∧ (s.askForArray d).resetLow = s.resetLow ∧
    (s.askForArray d).draws = s.draws ∧ (s.askForArray d).pending = s.pending := by
  unfold State.askForArray
  (repeat' split) <;> simp

@[simp] theorem State.startArray_bus (s : State) : s.startArray.bus = s.bus := rfl
@[simp] theorem State.startArray_pool (s : State) : s.startArray.pool = s.pool := rfl
@[simp] theorem State.startArray_staging (s : State) : s.startArray.staging = s.staging := rfl
@[simp] theorem State.startArray_events (s : State) : s.startArray.events = s.events := rfl
@[simp] theorem State.startArray_table (s : State) : s.startArray.table = s.table := rfl
@[simp] theorem State.startArray_refresh (s : State) : s.startArray.refresh = s.refresh := rfl
@[simp] theorem State.startArray_capture (s : State) : s.startArray.capture = s.capture := rfl
@[simp] theorem State.startArray_array (s : State) : s.startArray.array = s.array := rfl
@[simp] theorem State.startArray_resetLow (s : State) : s.startArray.resetLow = s.resetLow := rfl
@[simp] theorem State.startArray_port (s : State) : s.startArray.port = s.port := rfl
@[simp] theorem State.startArray_now (s : State) : s.startArray.now = s.now := rfl
@[simp] theorem State.startArray_draws (s : State) : s.startArray.draws = s.draws := rfl
@[simp] theorem State.startArray_pending (s : State) : s.startArray.pending = s.pending := rfl

/-- What `setMode` leaves as it was. -/
@[simp] theorem State.setMode_frame (s : State) :
    s.setMode.bus = s.bus ∧ s.setMode.pool = s.pool ∧ s.setMode.staging = s.staging ∧
    s.setMode.events = s.events ∧ s.setMode.table = s.table ∧ s.setMode.refresh = s.refresh ∧
    s.setMode.capture = s.capture ∧ s.setMode.array = s.array ∧
    s.setMode.resetLow = s.resetLow ∧ s.setMode.draws = s.draws ∧
    s.setMode.pending = s.pending := by
  simp [State.setMode]

/-- What `startAlign` leaves as it was. -/
@[simp] theorem State.startAlign_frame (s : State) :
    s.startAlign.bus = s.bus ∧ s.startAlign.pool = s.pool ∧ s.startAlign.staging = s.staging ∧
    s.startAlign.events = s.events ∧ s.startAlign.table = s.table ∧
    s.startAlign.refresh = s.refresh ∧ s.startAlign.capture = s.capture ∧
    s.startAlign.setup = s.setup ∧ s.startAlign.array = s.array ∧
    s.startAlign.resetLow = s.resetLow ∧ s.startAlign.draws = s.draws ∧
    s.startAlign.pending = s.pending := by
  simp [State.startAlign]

/-- What `closeAll` leaves as it was. -/
@[simp] theorem State.closeAll_frame (s : State) :
    s.closeAll.bus = s.bus ∧ s.closeAll.pool = s.pool ∧ s.closeAll.staging = s.staging ∧
    s.closeAll.events = s.events ∧ s.closeAll.refresh = s.refresh ∧
    s.closeAll.capture = s.capture ∧ s.closeAll.setup = s.setup ∧ s.closeAll.array = s.array ∧
    s.closeAll.resetLow = s.resetLow ∧ s.closeAll.port = s.port ∧ s.closeAll.now = s.now ∧
    s.closeAll.draws = s.draws ∧ s.closeAll.pending = s.pending := by
  unfold State.closeAll
  (repeat' split) <;> simp

/-- What `captureStop` leaves as it was. -/
@[simp] theorem State.captureStop_frame (s : State) :
    s.captureStop.bus = s.bus ∧ s.captureStop.pool = s.pool ∧
    s.captureStop.staging = s.staging ∧ s.captureStop.table = s.table ∧
    s.captureStop.refresh = s.refresh ∧ s.captureStop.setup = s.setup ∧
    s.captureStop.array = s.array ∧ s.captureStop.resetLow = s.resetLow ∧
    s.captureStop.draws = s.draws ∧ s.captureStop.pending = s.pending := by
  unfold State.captureStop
  (repeat' split) <;> simp

/-- What `tick` leaves as it was. -/
@[simp] theorem State.tick_frame (s : State) :
    s.tick.bus = s.bus ∧ s.tick.pool = s.pool ∧ s.tick.staging = s.staging ∧
    s.tick.events = s.events ∧ s.tick.sched = s.sched ∧ s.tick.table = s.table ∧
    s.tick.refresh = s.refresh ∧ s.tick.capture = s.capture ∧ s.tick.setup = s.setup ∧
    s.tick.ctrl = s.ctrl ∧ s.tick.array = s.array ∧ s.tick.resetLow = s.resetLow ∧
    s.tick.port = s.port ∧ s.tick.draws = s.draws ∧ s.tick.pending = s.pending := by
  unfold State.tick
  (repeat' split) <;> simp
/-! ### What the basic updates write -/

@[simp] theorem State.atAC_now (s : State) (t : Nat) : (s.atAC t).now = t := rfl
@[simp] theorem State.raiseEvent_events (s : State) (e : Event) :
    (s.raiseEvent e).events = { s.events with flags := s.events.flags ||| e.mask } := rfl
@[simp] theorem State.raiseFault_events (s : State) (k : FaultKind) (d : Word) :
    (s.raiseFault k d).events = s.events.raiseFault k d := rfl
@[simp] theorem State.issue_now (s : State) (op : ArrayOp) (t : Nat) : (s.issue op t).now = t := rfl
@[simp] theorem State.issue_port (s : State) (op : ArrayOp) (t : Nat) :
    (s.issue op t).port = some ⟨op, t⟩ := rfl
@[simp] theorem State.grant_sched (s : State) (j : Job) :
    (s.grant j).sched = { s.sched with job := some j } := rfl
@[simp] theorem State.startRefreshTimer_refresh (s : State) :
    s.startRefreshTimer.refresh =
      { s.refresh with timer := some (s.now + s.setup.refreshPeriod) } := rfl
@[simp] theorem State.nextRefreshPeriod_refresh (s : State) :
    s.nextRefreshPeriod.refresh =
      { s.refresh with timer := s.refresh.timer.map (· + s.setup.refreshPeriod) } := rfl
@[simp] theorem State.loseContents_job (s : State) : s.loseContents.sched.job = s.sched.job := rfl
@[simp] theorem State.loseContents_array (s : State) :
    s.loseContents.array = s.array.forget := rfl
@[simp] theorem State.enterReady_sched (s : State) :
    s.enterReady.sched = { s.sched with job := none } := rfl
@[simp] theorem State.enterReady_ctrl (s : State) :
    s.enterReady.ctrl = { s.ctrl with
      arrayState := .ready, indication := .none, progress := .idle,
      dozeTimer := s.dozeStart s.now } := rfl
@[simp] theorem State.abandonDoze_ctrl (s : State) :
    s.abandonDoze.ctrl = { s.ctrl with progress := .idle, dozeTimer := s.dozeStart s.now } := rfl
@[simp] theorem State.halt_ctrl (s : State) :
    s.halt.ctrl = { s.ctrl with progress := s.ctrl.progress.halted, probe := none } := rfl
@[simp] theorem State.emptyHostSide_events (s : State) :
    s.emptyHostSide.events = s.events.softReset := rfl
@[simp] theorem State.emptyHostSide_pool (s : State) :
    s.emptyHostSide.pool =
      { queued := [], active := none, done := [], counter := s.pool.counter } := rfl
@[simp] theorem State.retire_pool (s : State) (r : Request) (c : Completion) :
    (s.retire r c).pool = { s.pool with done := s.pool.done ++ [c] } := rfl
@[simp] theorem State.retire_staging (s : State) (r : Request) (c : Completion) :
    (s.retire r c).staging = s.staging.setOwner r none := rfl
@[simp] theorem State.withCommand_pending (s : State) (c : Instr) :
    (s.withCommand c).pending = c :: s.pending := rfl

/-! ### The entry of a bank -/

@[simp] theorem State.bank_setBank_same (s : State) (b : Fin 8) (e : Bank) :
    (s.setBank b e).bank b = e := by
  show (s.table.banks.set b.val e b.isLt)[b.val] = e
  simp

theorem State.bank_setBank_other (s : State) (b c : Fin 8) (e : Bank) (h : c ≠ b) :
    (s.setBank b e).bank c = s.bank c := by
  have h' : b.val ≠ c.val := fun x => h (Fin.ext x.symm)
  show (s.table.banks.set b.val e b.isLt)[c.val] = s.table.banks[c.val]
  simp [h']

end Sys2Proof.Machine
end

