-- ==== Sys2Proof/Laws/Steps.lean ====
section
/-! SUPPORT. What a step that is taken, or not taken, can do: the lemmas that the proofs about `exec`
and `step` cite instead of unfolding `take` and `takeAt`. -/

namespace Sys2Proof.Machine

/-- A property that the state and the effect both have holds after a taken step. -/
theorem State.take_keeps {P : State → Prop} {s u t : State} (h : s.take u = .next t)
    (hs : P s) (hu : P u) : P t := by
  unfold State.take at h
  injection h with h
  subst h
  split <;> assumption

/-- A property of the state that the effect has at the AC it is taken holds after the step. -/
theorem State.takeAt_keeps {P : State → Prop} {s t : State} {point : Option Nat}
    {effect : Nat → State → State} (h : s.takeAt point effect = .next t)
    (hs : P s) (hu : ∀ n, point = some n → P (effect n s)) : P t := by
  unfold State.takeAt at h
  split at h
  · exact State.take_keeps h hs (hu _ rfl)
  · injection h with h
    exact h ▸ hs

/-- A refused or an accepted command: the status alone, or the effect and the status. -/
theorem State.command_keeps {P : State → Prop} {s u t : State} {code : BitVec 4}
    {o : CommandOutcome} (h : s.command code o u = .next t)
    (hs : P s) (ha : ∀ x y : State, P x → (∃ c z, y = x.answer c z) → P y) (hu : o = .accepted → P u) :
    P t := by
  unfold State.command at h
  refine State.take_keeps h hs ?_
  split
  · exact ha _ _ (hu (by assumption)) ⟨_, _, rfl⟩
  · exact ha _ _ hs ⟨_, _, rfl⟩

/-- While RESET# is high a step is its effect. -/
theorem State.take_high {s u : State} (h : s.resetLow = false) : s.take u = .next u := by
  simp [State.take, h]

/-- While RESET# is high an accepted command is its effect, with its code and outcome in the command
status (R190). -/
theorem State.command_accepted {s u : State} {code : BitVec 4} (h : s.resetLow = false) :
    s.command code .accepted u = .next (u.answer code .accepted) := by
  simp [State.command, State.take_high h]

/-- While RESET# is high a refused command changes the command status alone (R184). -/
theorem State.command_refused {s u : State} {code : BitVec 4} {o : CommandOutcome}
    (h : s.resetLow = false) (ho : o ≠ .accepted) : s.command code o u = .next (s.answer code o) := by
  simp [State.command, State.take_high h, ho]

/-- While RESET# is high a step that has an AC is its effect at that AC. -/
theorem State.takeAt_high {s : State} {n : Nat} {point : Option Nat}
    {effect : Nat → State → State} (h : s.resetLow = false) (hp : point = some n) :
    s.takeAt point effect = .next (effect n s) := by
  subst hp
  exact State.take_high h

/-- A step whose conditions do not hold leaves the state as it is. -/
theorem State.takeAt_none (s : State) (effect : Nat → State → State) :
    s.takeAt none effect = .next s := rfl

/-- While RESET# is low nothing is taken. -/
theorem State.take_low {s u : State} (h : s.resetLow = true) : s.take u = .next s := by
  simp [State.take, h]

/-- A step of the machine is a command's effect, on the rest of the queue or on the counted draw, or
the passing of one AC, or nothing. So a property that `exec` keeps, and that the queue, the draws and
the AC count do not touch, is one that `step` keeps. -/
theorem step_keeps {P : State → Prop} {s t : State} (h : step s = .next t) (hs : P s)
    (hq : ∀ (x : State) q, P x → P { x with pending := q })
    (hd : ∀ (x : State) n, P x → P { x with draws := n })
    (hn : ∀ (x : State) n, P x → P { x with now := n })
    (he : ∀ c x y, exec c x = .next y → P x → P y) : P t := by
  unfold step at h
  split at h
  · exact he _ _ _ h (hq _ _ hs)
  · unfold idle at h
    split at h
    · injection h with h
      exact h ▸ hs
    · split at h
      · exact he _ _ _ h (hd _ _ hs)
      · injection h with h
        subst h
        unfold State.tick
        split
        · exact hn _ _ hs
        · exact hs

end Sys2Proof.Machine
end

