-- ==== Sys2Proof/Laws/Ops.lean ====
section
/-! SUPPORT. What the shared operations can do: memory, ownership, the fault record, setup and register
values. Each lemma says once all that its operation does, so that no proof unfolds the operation
again. -/

namespace Sys2Proof.Machine

/-! ### Memory -/

theorem Memory.read_write (m : Memory) (a b : Nat) (v : Word) :
    (m.write a v).read b = if b = a then some v else m.read b := by
  induction m with
  | nil =>
    by_cases h : a = b
    · subst h; simp [Memory.write, Memory.read]
    · simp [Memory.write, Memory.read, h, Ne.symm h]
  | cons p m ih =>
    obtain ⟨c, w⟩ := p
    unfold Memory.write
    split
    · by_cases h : a = b
      · subst h; simp [Memory.read]
      · simp [Memory.read, h, Ne.symm h]
    · split
      · rename_i h1 h2
        subst h2
        by_cases h : a = b
        · subst h; simp [Memory.read]
        · simp [Memory.read, h, Ne.symm h]
      · rename_i h1 h2
        simp only [Memory.read, ih]
        by_cases h : c = b
        · have : ¬ b = a := fun x => h2 (by omega)
          simp [h, this]
        · simp [h]

theorem Memory.read_writeAll (vs : List Word) : ∀ (m : Memory) (a b : Nat),
    (m.writeAll a vs).read b =
      if a ≤ b ∧ b < a + vs.length then vs[b - a]? else m.read b := by
  induction vs with
  | nil =>
    intro m a b
    simp [Memory.writeAll]
  | cons v vs ih =>
    intro m a b
    simp only [Memory.writeAll, ih, Memory.read_write, List.length_cons]
    by_cases h : b = a
    · subst h
      have h1 : ¬ (b + 1 ≤ b ∧ b < b + 1 + vs.length) := by omega
      have h2 : b ≤ b ∧ b < b + (vs.length + 1) := by omega
      simp [h2]
    · by_cases hin : a + 1 ≤ b ∧ b < a + 1 + vs.length
      · have h2 : a ≤ b ∧ b < a + (vs.length + 1) := by omega
        have h3 : b - a = (b - (a + 1)) + 1 := by omega
        simp only [hin, h2, and_self, if_true]
        rw [h3]
        simp
      · have h2 : ¬ (a ≤ b ∧ b < a + (vs.length + 1)) := by omega
        simp only [hin, h2, if_false, h]

/-- A list is canonical when its first address lies below the next and its tail is canonical. -/
theorem Memory.wf_cons {a : Nat} {w : Word} {m : Memory} :
    Memory.wf ((a, w) :: m) = true ↔
      (∀ p, m.head? = some p → a < p.1) ∧ Memory.wf m = true := by
  cases m with
  | nil => simp [Memory.wf]
  | cons p m => obtain ⟨b, x⟩ := p; simp [Memory.wf]

/-- A write puts its address or the first address of the list in front. -/
theorem Memory.head_write (m : Memory) (a : Nat) (v : Word) (p : Nat × Word)
    (h : (m.write a v).head? = some p) : p.1 = a ∨ m.head?.map Prod.fst = some p.1 := by
  cases m with
  | nil => simp [Memory.write] at h; subst h; exact Or.inl rfl
  | cons q m =>
    obtain ⟨c, w⟩ := q
    unfold Memory.write at h
    split at h
    · simp at h; subst h; exact Or.inl rfl
    · split at h
      · simp at h; subst h; exact Or.inl rfl
      · simp at h; subst h; exact Or.inr rfl

theorem Memory.wf_write (m : Memory) (a : Nat) (v : Word) (h : Memory.wf m = true) :
    Memory.wf (m.write a v) = true := by
  induction m with
  | nil => rfl
  | cons p m ih =>
    obtain ⟨c, w⟩ := p
    rw [Memory.wf_cons] at h
    unfold Memory.write
    split
    · rename_i hlt
      exact Memory.wf_cons.2 ⟨by simp [hlt], Memory.wf_cons.2 h⟩
    · split
      · rename_i heq
        subst heq
        exact Memory.wf_cons.2 h
      · rename_i h1 h2
        refine Memory.wf_cons.2 ⟨?_, ih h.2⟩
        intro p hp
        rcases Memory.head_write m a v p hp with e | e
        · omega
        · cases hm : m.head? with
          | none => simp [hm] at e
          | some q =>
            have := h.1 q hm
            simp [hm] at e
            omega

theorem Memory.wf_writeAll (vs : List Word) : ∀ (m : Memory) (a : Nat),
    Memory.wf m = true → Memory.wf (m.writeAll a vs) = true := by
  induction vs with
  | nil => intro m a h; exact h
  | cons v vs ih => intro m a h; exact ih _ _ (Memory.wf_write m a v h)

theorem State.reset_memories :
    Memory.wf State.reset.staging.words = true ∧ Memory.wf State.reset.array.words = true :=
  ⟨rfl, rfl⟩

/-- A staging-buffer word after a store (R42). -/
theorem Staging.word_write (b : Staging) (a c : Nat) (v : Word) :
    Staging.word { b with words := b.words.write a v } c = if c = a then v else b.word c := by
  unfold Staging.word
  rw [Memory.read_write]
  split <;> rfl

/-! ### Slot ownership -/

theorem setSpan_get (owner : Vector (Option Byte) 32) (start : Nat) (who : Option Byte)
    (n i : Nat) (h : i < 32) :
    (setSpan owner start who n)[i] = if start ≤ i ∧ i < start + n then who else owner[i] := by
  induction n with
  | zero =>
    simp [setSpan]
  | succ n ih =>
    simp only [setSpan, Vector.getElem_setIfInBounds, ih]
    by_cases h1 : start + n = i
    · have h2 : start ≤ i ∧ i < start + (n + 1) := by omega
      simp [h1, h2]
    · by_cases h2 : start ≤ i ∧ i < start + n
      · have h3 : start ≤ i ∧ i < start + (n + 1) := by omega
        simp [h1, h2, h3]
      · have h3 : ¬ (start ≤ i ∧ i < start + (n + 1)) := by omega
        simp [h1, h2, h3]

/-- The owner of a slot after a span takes an owner (R43, R44, R45). -/
theorem Staging.setOwner_get (b : Staging) (r : Request) (who : Option Byte) (i : Nat)
    (h : i < 32) :
    (b.setOwner r who).owner[i] =
      match r.slot with
      | none => b.owner[i]
      | some slot =>
        if slot ≤ i ∧ i < slot + spanSlots r.length then who else b.owner[i] := by
  unfold Staging.setOwner
  split
  · simp_all
  · simp_all [setSpan_get]

@[simp] theorem Staging.setOwner_words (b : Staging) (r : Request) (who : Option Byte) :
    (b.setOwner r who).words = b.words := by
  unfold Staging.setOwner; split <;> rfl

@[simp] theorem Staging.setOwner_epoch (b : Staging) (r : Request) (who : Option Byte) :
    (b.setOwner r who).epoch = b.epoch := by
  unfold Staging.setOwner; split <;> rfl

/-! ### Event Unit -/

@[simp] theorem Events.raiseFault_enables (u : Events) (k : FaultKind) (d : Word) :
    (u.raiseFault k d).enables = u.enables := by
  unfold Events.raiseFault; split <;> rfl

/-- A fault in an empty record (R181). -/
theorem Events.raiseFault_empty (u : Events) (k : FaultKind) (d : Word) (h : u.record = none) :
    u.raiseFault k d =
      { u with record := some ⟨k, d, 0⟩, flags := u.flags ||| Event.fault.mask } := by
  unfold Events.raiseFault; rw [h]

/-- A fault in a full record (R181). -/
theorem Events.raiseFault_full (u : Events) (k : FaultKind) (d : Word) (r : FaultRecord)
    (h : u.record = some r) :
    u.raiseFault k d = { u with record := some { r with further := min 255 (r.further + 1) } } := by
  unfold Events.raiseFault; rw [h]

/-! ### Bank Table and setup values -/

/-- The same change at every bank. -/
theorem Table.mapBanks_get (u : Table) (f : Bank → Bank) (b : Fin 8) :
    (u.mapBanks f).banks.get b = f (u.banks.get b) := by
  obtain ⟨b, h⟩ := b
  interval_cases b <;> rfl

/-- A working value after the working set is loaded is its host copy (R16). -/
theorem Setup.loadWorking_get (u : Setup) (n : Fin 16) :
    u.loadWorking.working.get n = u.host.get (n.castLE (by decide)) := by
  obtain ⟨n, h⟩ := n
  interval_cases n <;> rfl

/-! ### Register values -/

/-- Sixteen one-bit fields: bit `i` of the register is field `i` (R187). -/
theorem pack_bits (f : Nat → Bool) (i : Nat) (h : i < 16) :
    (pack ((List.range 16).map fun i => (bitOf (f i), i))).getLsbD i = f i := by
  have fold : ∀ n acc : Nat,
      ((List.range n).map fun i => (bitOf (f i), i)).foldl (fun sum g => sum + g.1 * 2 ^ g.2) acc =
        acc + ((List.range n).map fun i => bitOf (f i) * 2 ^ i).sum := by
    intro n acc
    induction n generalizing acc with
    | zero => simp
    | succ n ih =>
      simp [List.range_succ, List.sum_append, ih]
      omega
  have below : ∀ n : Nat, ((List.range n).map fun i => bitOf (f i) * 2 ^ i).sum < 2 ^ n := by
    intro n
    induction n with
    | zero => simp
    | succ n ih =>
      have h1 : bitOf (f n) ≤ 1 := by unfold bitOf; split <;> simp
      have h2 := Nat.mul_le_mul_right (2 ^ n) h1
      simp only [List.range_succ, List.map_append, List.sum_append, List.map_cons, List.map_nil,
        List.sum_cons, List.sum_nil]
      rw [pow_succ]
      omega
  have bit : ∀ n i : Nat, i < n →
      (((List.range n).map fun i => bitOf (f i) * 2 ^ i).sum).testBit i = f i := by
    intro n i h
    induction n with
    | zero => omega
    | succ n ih =>
      simp only [List.range_succ, List.map_append, List.sum_append, List.map_cons, List.map_nil,
        List.sum_cons, List.sum_nil]
      rw [add_zero, add_comm, mul_comm, Nat.testBit_two_pow_mul_add _ (below n)]
      split
      · exact ih ‹_›
      · have e : i = n := by omega
        subst e
        simp [bitOf]
        cases f i <;> simp
  unfold pack
  rw [fold, zero_add, BitVec.getLsbD_ofNat, bit 16 i h]
  simp [h]

/-! ### The array port and the wake causes -/

/-- An operation is issued no earlier than now, and after the last one (R7). -/
theorem State.now_le_issuePoint (s : State) : s.now ≤ s.issuePoint := by
  unfold State.issuePoint; split <;> omega

theorem State.now_le_pointOf (s : State) (n : Nat) : s.now ≤ s.pointOf n := Nat.le_max_left _ _

/-- What an event of a kind that R169 names can do: begin a wake, abandon a doze entry, or
nothing. -/
theorem State.wakeCause_cases (s : State) :
    (s.ctrl.arrayState = .dozing ∧ s.waking = false ∧ s.wakeCause = s.beginWake) ∨
    (s.ctrl.arrayState ≠ .dozing ∧ s.dozeEntry = true ∧ s.wakeCause = s.abandonDoze) ∨
    s.wakeCause = s := by
  unfold State.wakeCause
  split
  · cases h : s.waking <;> simp_all
  · split <;> simp_all

/-- In DOZING with no wake in progress a wake cause begins a wake (R169). -/
theorem State.wakeCause_wakes {s : State} (h : s.ctrl.arrayState = .dozing)
    (hw : s.waking = false) : s.wakeCause = s.beginWake := by
  simp [State.wakeCause, h, hw]

/-- Outside DOZING a wake cause abandons a doze entry (R167). -/
theorem State.wakeCause_abandons {s : State} (h : s.ctrl.arrayState ≠ .dozing)
    (hd : s.dozeEntry = true) : s.wakeCause = s.abandonDoze := by
  simp [State.wakeCause, h, hd]

/-- A wake cause does nothing where no wake can begin and no doze entry is in progress (R167, R169). -/
theorem State.wakeCause_none {s : State} (h : s.ctrl.arrayState = .dozing → s.waking = true)
    (hd : s.dozeEntry = false) : s.wakeCause = s := by
  unfold State.wakeCause
  split
  · rename_i ha
    simp [h ha]
  · simp [hd]

end Sys2Proof.Machine
end

