-- ==== Sys2Proof/Laws/Records.lean ====
section
/-! SUPPORT. What the shared operations on records, rows and procedures can do, once each: the lemmas
that the proofs about completions, grants and expiries cite instead of unfolding them. -/

namespace Sys2Proof.Machine

/-! ### Slots and the end of QUEUED records -/

/-- A span's owner reaches the slots of the span and no other (R21, R43, R45). -/
theorem Staging.setOwner_covers (b : Staging) (r : Request) (who : Option Byte) (i : Fin 32) :
    (r.covers i → (b.setOwner r who).owner.get i = who) ∧
      (¬ r.covers i → (b.setOwner r who).owner.get i = b.owner.get i) := by
  have h : (b.setOwner r who).owner.get i = _ := Staging.setOwner_get b r who i.val i.isLt
  rw [h]
  constructor
  · rintro ⟨slot, hs, h1, h2⟩
    simp [hs, h1, h2]
  · intro hn
    split
    · rfl
    · rename_i slot hs
      rw [if_neg fun hc => hn ⟨slot, hs, hc.1, hc.2⟩]
      rfl

/-- Setting the owner of a span changes the owners alone. -/
theorem Staging.setOwner_owner (b : Staging) (r : Request) (who : Option Byte) :
    b.setOwner r who = { b with owner := (b.setOwner r who).owner } := by
  unfold Staging.setOwner
  split <;> rfl

/-- The QUEUED records under ABORT (R31, R39, R45, R96): they join the queue in their order, ABORTED with
words done 0, the slots of their spans return and no other, and COMPLETION is raised if one of them asks
for it. -/
theorem State.retireQueued_spec (l : List Queued) : ∀ s : State, ∃ owner : Vector (Option Byte) 32,
    s.retireQueued l = { s with
      pool.done :=
        s.pool.done ++ l.map fun q => q.abortedCompletion s.refresh.retentionLost
      staging.owner := owner
      events.flags :=
        if l.any (fun q => q.req.notify) then s.events.flags ||| Event.completion.mask
        else s.events.flags } ∧
    ∀ i : Fin 32, ((∃ q, q ∈ l ∧ q.req.covers i) → owner.get i = none) ∧
      ((¬ ∃ q, q ∈ l ∧ q.req.covers i) → owner.get i = s.staging.owner.get i) := by
  induction l with
  | nil => intro s; exact ⟨s.staging.owner, by simp [State.retireQueued], by simp⟩
  | cons q l ih =>
    intro s
    obtain ⟨o, h1, h2⟩ := ih (s.retire q.req (q.abortedCompletion s.refresh.retentionLost))
    refine ⟨o, ?_, fun i => ?_⟩
    · have hflags : ∀ (x y : Bool) (f m : BitVec 8),
          (if y = true then (if x = true then f ||| m else f) ||| m
            else if x = true then f ||| m else f) =
          if (x || y) = true then f ||| m else f := by
        intro x y f m
        cases x <;> cases y <;> simp [BitVec.or_assoc]
      have howner : ∀ b : Staging,
          { b.setOwner q.req none with owner := o } = { b with owner := o } := by
        intro b
        rw [Staging.setOwner_owner b q.req none]
      rw [State.retireQueued, h1]
      simp only [State.retire, howner, hflags, List.any_cons]
      simp
    · obtain ⟨a1, a2⟩ := h2 i
      have hq := Staging.setOwner_covers s.staging q.req none i
      constructor
      · rintro ⟨p, hp, hc⟩
        by_cases hx : ∃ q, q ∈ l ∧ q.req.covers i
        · exact a1 hx
        · rcases List.mem_cons.1 hp with hp | hp
          · subst hp
            rw [a2 hx]
            exact hq.1 hc
          · exact absurd ⟨p, hp, hc⟩ hx
      · intro hn
        rw [a2 fun ⟨p, hp, hc⟩ => hn ⟨p, List.mem_cons_of_mem _ hp, hc⟩]
        exact hq.2 fun hc => hn ⟨q, List.mem_cons_self, hc⟩

/-! ### Row decisions -/

/-- Setting a bank's entry leaves the others (R57). -/
theorem State.setBank_bank (s : State) (b c : Fin 8) (e : Bank) :
    (s.setBank b e).bank c = if c = b then e else s.bank c := by
  obtain ⟨b, hb⟩ := b
  obtain ⟨c, hc⟩ := c
  simp only [State.setBank, State.bank, Fin.mk.injEq]
  show (s.table.banks.set b e hb)[c] = if c = b then e else s.table.banks[c]
  rw [Vector.getElem_set]
  by_cases h : c = b
  · subst h; simp
  · rw [if_neg h, if_neg (Ne.symm h)]

/-- Marking a row changes the Bank Table's entries only, and in each at most the close mark. -/
theorem State.markRow_spec (s : State) (b : Fin 8) (row : Nat) :
    ∃ banks, s.markRow b row = { s with table.banks := banks } ∧
      ∀ c : Fin 8, ∃ m, banks.get c = { s.bank c with mark := m } := by
  refine ⟨_, rfl, ?_⟩
  intro c
  have h := State.setBank_bank s b c ((s.bank b).markRow row)
  change (s.table.banks.set b.val ((s.bank b).markRow row) b.isLt).get c = _ at h
  rw [h]
  split
  · subst c
    unfold Bank.markRow
    split
    · exact ⟨true, rfl⟩
    · exact ⟨(s.bank b).mark, rfl⟩
  · exact ⟨(s.bank c).mark, rfl⟩

/-- A state in which some banks have been marked and nothing else has changed. -/
def State.marksOnly (s t : State) : Prop :=
  ∃ banks, t = { s with table.banks := banks } ∧
    ∀ c : Fin 8, ∃ m, banks.get c = { s.bank c with mark := m }

theorem State.marksOnly_refl (s : State) : s.marksOnly s :=
  ⟨s.table.banks, rfl, fun c => ⟨(s.bank c).mark, rfl⟩⟩

/-- The decision at a segment end marks rows and does nothing else (R71). -/
theorem State.segmentEnd_marksOnly (s : State) (a : Active) (x : Burst) :
    s.marksOnly (s.segmentEnd a x) := by
  unfold State.segmentEnd State.segmentDecision
  repeat' split
  all_goals first
    | exact State.marksOnly_refl s
    | exact State.markRow_spec s _ _

/-- The decision at a chunk end marks rows and does nothing else (R73). -/
theorem State.chunkDecision_marksOnly (s : State) (b : Fin 8) (row : Nat) :
    s.marksOnly (s.chunkDecision b row) := by
  unfold State.chunkDecision
  split
  · exact State.marksOnly_refl s
  · exact State.markRow_spec s _ _

/-- A segment lies in a row of a bank. -/
theorem Segment.liesIn_iff (y : Segment) (b : Fin 8) (row : Nat) :
    y.liesIn b row = true ↔ y.bank = b ∧ y.row = row := by
  unfold Segment.liesIn
  exact decide_eq_true_iff

/-- The row policy keeps a row (R72, R73): OPEN_PAGE does, and ADAPTIVE where the row is wanted, by a
QUEUED record or otherwise. -/
theorem State.policyKeeps_iff (s : State) (b : Fin 8) (row : Nat) (wanted : Bool) :
    s.policyKeeps b row wanted = true ↔
      s.table.policy = .openPage ∨ (s.table.policy = .adaptive ∧
        ((∃ q, q ∈ s.pool.queued ∧ bankOf s.setup.workGeometry q.req.address = b ∧
          rowOf s.setup.workGeometry q.req.address = row) ∨ wanted = true)) := by
  have hq : (s.pool.queued.any fun q =>
      (q.req.firstSegment s.setup.workGeometry).liesIn b row) = true ↔
      ∃ q, q ∈ s.pool.queued ∧ bankOf s.setup.workGeometry q.req.address = b ∧
        rowOf s.setup.workGeometry q.req.address = row := by
    simp only [List.any_eq_true, Segment.liesIn_iff]
    rfl
  unfold State.policyKeeps
  cases s.table.policy <;> simp [← hq]

/-- The segment that follows a burst's lies in a row of a bank (R3, R72). -/
theorem Request.segmentAfter_liesIn (r : Request) (g : Geometry) (x : Burst) (b : Fin 8)
    (row : Nat) :
    ((r.segmentAfter g x).map fun y => y.liesIn b row).getD false = true ↔
      (let count := min r.length (g.cols - columnOf g r.address)
       x.first < count ∧ count < r.length ∧ bankOf g (r.address + count) = b ∧
        rowOf g (r.address + count) = row) := by
  show _ ↔ x.first < (r.firstSegment g).count ∧ (r.firstSegment g).count < r.length ∧
    bankOf g (r.address + (r.firstSegment g).count) = b ∧
    rowOf g (r.address + (r.firstSegment g).count) = row
  unfold Request.segmentAfter Request.secondSegment
  by_cases h1 : x.first < (r.firstSegment g).count
  · by_cases h2 : (r.firstSegment g).count < r.length
    · rw [if_pos h1, if_pos h2]
      simp only [Option.map_some, Option.getD_some, Segment.liesIn_iff, h1, h2, true_and]
      rfl
    · rw [if_pos h1, if_neg h2]
      simp [h2]
  · rw [if_neg h1]
    simp [h1]

/-! ### Completions of the ACTIVE record -/

/-- The words of a burst that has captured none before a loss are the array's (R9). -/
theorem ArrayContents.readBy_fresh (m : ArrayContents) (x : Burst) (h : x.data = [])
    (address : Nat) : m.readBy x address = m.word address := by
  simp [ArrayContents.readBy, h]

/-- A loss of the contents leaves a burst in flight all but its data (R9). -/
theorem Burst.keepCaptured_spec (x : Burst) (m : ArrayContents) (now : Nat) :
    ∃ data, x.keepCaptured m now = { x with data := data } := by
  unfold Burst.keepCaptured
  split
  · exact ⟨x.data, rfl⟩
  · exact ⟨_, rfl⟩

/-- What a read has captured when the contents are lost stays its word (R9, R18); from its block's
first word not yet captured on, the array's later words are. -/
theorem ArrayContents.readBy_keepCaptured (m m' : ArrayContents) (x : Burst) (now j : Nat)
    (h : x.isWrite = false) :
    m'.readBy (x.keepCaptured m now) (x.base + j) =
      if j < x.captured now then m.readBy x (x.base + j) else m'.word (x.base + j) := by
  unfold Burst.keepCaptured
  rw [h]
  simp only [Bool.false_eq_true, if_false]
  unfold ArrayContents.readBy
  split <;> simp [*]

/-- The words that a burst carries for its record (R5, R9). -/
theorem State.requestedWords_getElem (s : State) (r : Request) (x : Burst) (k : Nat) :
    (s.requestedWords r x)[k]? =
      if k < x.count then some (s.array.readBy x (r.address + (x.first + k))) else none := by
  unfold State.requestedWords
  split <;> simp [*]

/-- The buffer after the requested words of a READ's burst have been stored (R52). -/
theorem State.storeRequested_word (s : State) (r : Request) (x : Burst) (slot w : Nat)
    (hk : r.kind = .read) (hs : r.slot = some slot) :
    (s.storeRequested r x).staging.word w =
      if slot * 64 + x.first ≤ w ∧ w < slot * 64 + x.first + x.count then
        s.array.readBy x (r.address + (w - slot * 64))
      else s.staging.word w := by
  unfold State.storeRequested Staging.word
  rw [hk, hs]
  simp only [Memory.read_writeAll, pairedWord]
  have hl : (s.requestedWords r x).length = x.count := by simp [State.requestedWords]
  rw [hl]
  split
  · rename_i h
    rw [State.requestedWords_getElem, if_pos (by omega)]
    have : x.first + (w - (slot * 64 + x.first)) = w - slot * 64 := by omega
    rw [this]
    rfl
  · rfl

/-- A burst of a record of another kind stores nothing in the buffer (R54). -/
theorem State.storeRequested_other (s : State) (r : Request) (x : Burst) (hk : r.kind ≠ .read) :
    s.storeRequested r x = s := by
  unfold State.storeRequested
  split
  · contradiction
  · rfl

/-- What a record's completion leaves once it is counted (R92, R97): another of its bursts in flight
or a pending SOFT_RESET keeps it ACTIVE; so does a block that is left, unless it is being aborted; else
it becomes DONE. -/
theorem State.finishIfLast_cases (s : State) (a : Active) :
    ((s.sched.inFlight.any (fun x => decide (x.user = .record)) = true ∨ s.bus.softPending = true) ∧
      s.finishIfLast a = { s with pool.active := some a }) ∨
    (s.sched.inFlight.any (fun x => decide (x.user = .record)) = false ∧ s.bus.softPending = false ∧
      ((a.aborting = true ∧ s.finishIfLast a = s.finishActive a .aborted none) ∨
       (a.aborting = false ∧ a.position < a.req.length ∧
          s.finishIfLast a = { s with pool.active := some a }) ∨
       (a.aborting = false ∧ a.req.length ≤ a.position ∧
          s.finishIfLast a = s.finishActive a a.outcome.1 a.outcome.2))) := by
  unfold State.finishIfLast
  cases h1 : s.sched.inFlight.any (fun x => decide (x.user = .record)) <;>
    cases h2 : s.bus.softPending <;> cases h3 : a.aborting <;> simp [Active.hasBlock]
  by_cases h4 : a.position < a.req.length
  · simp [h4]
  · simp [h4, Nat.not_lt.1 h4]

/-- A burst of the ACTIVE record completes: it is stored, counted, its segment end decided, and the
record finished if it was the last (R90 to R92). -/
theorem State.completeForRecord_some (s : State) (x : Burst) (a : Active)
    (h : s.pool.active = some a) :
    s.completeForRecord x =
      ({ s.storeRequested a.req x with pool.active := some (s.counted a x) }.segmentEnd
        (s.counted a x) x).finishIfLast (s.counted a x) := by
  unfold State.completeForRecord
  rw [h]

/-- The comparisons of a run of word pairs (R90): the count grows by the number of pairs that differ,
and the first offset, once set, stays. -/
theorem Tally.compare_spec (l : List (Word × Word)) : ∀ (y : Tally) (i : Nat),
    (y.compare i l).count = y.count + (l.filter fun p => decide (p.1 ≠ p.2)).length ∧
    (y.compare i l).first =
      match y.first with
      | some j => some j
      | none => (l.findIdx? fun p => decide (p.1 ≠ p.2)).map fun k => i + k := by
  induction l with
  | nil =>
    intro y i
    simp only [Tally.compare, List.filter_nil, List.length_nil, List.findIdx?_nil, Option.map_none]
    refine ⟨rfl, ?_⟩
    split <;> assumption
  | cons p l ih =>
    intro y i
    obtain ⟨a, b⟩ := p
    simp only [Tally.compare]
    obtain ⟨h1, h2⟩ := ih (y.count1 i (decide (a ≠ b))) (i + 1)
    by_cases h : a = b
    · subst h
      have hc : y.count1 i (decide (a ≠ a)) = y := by simp [Tally.count1]
      rw [hc] at h1 h2 ⊢
      constructor
      · rw [h1]; simp
      · rw [h2]
        cases hy : y.first with
        | some j => rfl
        | none =>
          simp only [List.findIdx?_cons]
          simp only [ne_eq, not_true_eq_false, decide_false, Bool.false_eq_true, if_false,
            Option.map_map]
          congr 1
          funext k
          simp only [Function.comp]
          omega
    · have hc : y.count1 i (decide (a ≠ b)) = ⟨y.count + 1, some (y.first.getD i)⟩ := by
        simp [Tally.count1, h]
      rw [hc] at h1 h2 ⊢
      constructor
      · rw [h1]; simp [h]; omega
      · rw [h2]
        cases hy : y.first with
        | some j => rfl
        | none => simp [List.findIdx?_cons, h]

/-! ### Procedures -/

/-- Outside the work that waits for a window, nothing goes on by itself (R149, R150, R162). -/
theorem State.proceed_idle (s : State) (h : s.ctrl.progress = .idle) : s.proceed = s := by
  simp [State.proceed, State.lookAtRefresh, State.endSetModeIfNothingToLoad, State.endRestore, h]

/-- No restore, no end of one. -/
theorem State.endRestore_other (s : State) (h : ∀ w, s.ctrl.progress ≠ .restoreShut w) :
    s.endRestore = s := by
  unfold State.endRestore
  split
  · rename_i w hw
    exact absurd hw (h w)
  · rfl

/-- A procedure that waits for nothing it could go on with is left as it is. -/
theorem State.proceed_other (s : State) (h1 : ∀ d, s.ctrl.progress ≠ .shutAll d)
    (h2 : s.ctrl.progress = .due .setMode → s.ctrl.loadWords ≠ [])
    (h3 : ∀ w, s.ctrl.progress ≠ .restoreShut w) : s.proceed = s := by
  have e1 : s.lookAtRefresh = s := by
    unfold State.lookAtRefresh
    split
    · rename_i d hd
      exact absurd hd (h1 d)
    · rfl
  have e2 : s.endSetModeIfNothingToLoad = s := by
    unfold State.endSetModeIfNothingToLoad
    rw [if_neg]
    intro h
    simp only [Bool.and_eq_true, decide_eq_true_eq, List.isEmpty_iff] at h
    exact h2 h.1.1.1.1.1 h.1.1.1.1.2
  unfold State.proceed
  rw [e1, e2]
  exact State.endRestore_other s h3

/-- While a bank is not CLOSED no procedure goes on by itself. -/
theorem State.proceed_open (s : State) (h : s.allClosed = false) : s.proceed = s := by
  have e1 : s.lookAtRefresh = s := by
    unfold State.lookAtRefresh
    split
    · rw [if_neg (by simp [h])]
    · rfl
  have e2 : s.endSetModeIfNothingToLoad = s := by
    unfold State.endSetModeIfNothingToLoad
    rw [if_neg (by simp [h])]
  unfold State.proceed
  rw [e1, e2]
  unfold State.endRestore
  split
  · rw [if_neg (by simp [h])]
  · rfl

/-- A procedure whose shut-all is over serves the urgent claim, or comes to its own work (R149, R154,
R166, R172); a SET_MODE with nothing to load may be over with it (R150). -/
theorem State.proceed_shutAll (s : State) (d : Drain) (h : s.ctrl.progress = .shutAll d)
    (hc : s.allClosed = true) :
    s.proceed =
      if s.urgentClaim = true ∧ d ≠ .doze then { s with ctrl.progress := .renewing d }
      else State.endSetModeIfNothingToLoad { s with ctrl.progress := .due d } := by
  have e1 : s.lookAtRefresh = { s with
      ctrl.progress := if s.urgentClaim && decide (d ≠ .doze) then .renewing d else .due d } := by
    unfold State.lookAtRefresh
    rw [h]
    exact if_pos hc
  unfold State.proceed
  rw [e1]
  by_cases hu : s.urgentClaim = true ∧ d ≠ .doze
  · simp [hu, State.endSetModeIfNothingToLoad, State.endRestore]
  · rw [if_neg hu, if_neg (by simpa using hu)]
    refine State.endRestore_other _ fun w => ?_
    unfold State.endSetModeIfNothingToLoad
    split <;> simp [State.enterReady]

/-- A SET_MODE with nothing to load ends once its windows are over (R150). -/
theorem State.proceed_nothingToLoad (s : State) (h : s.ctrl.progress = .due .setMode)
    (hl : s.ctrl.loadWords = []) (hc : s.allClosed = true) :
    s.proceed =
      if s.renewOver = true ∧ s.settled = true ∧ s.modeHoldOver = true then
        s.enterReady.raiseEvent .ready
      else s := by
  have e1 : s.lookAtRefresh = s := by
    unfold State.lookAtRefresh
    rw [h]
  have e2 : s.endSetModeIfNothingToLoad =
      if s.renewOver = true ∧ s.settled = true ∧ s.modeHoldOver = true then
        s.enterReady.raiseEvent .ready
      else s := by
    unfold State.endSetModeIfNothingToLoad
    simp only [h, hl, hc, decide_true, List.isEmpty_nil, Bool.true_and, Bool.and_eq_true, and_assoc]
  unfold State.proceed
  rw [e1, e2]
  refine State.endRestore_other _ fun w => ?_
  split <;> simp [State.enterReady, h]

/-- A restore with every bank CLOSED is over, unless it waits for a mode-settle window (R162). -/
theorem State.proceed_restoreShut (s : State) (w : Bool) (h : s.ctrl.progress = .restoreShut w)
    (hc : s.allClosed = true) :
    s.proceed = if s.settled = true ∨ w = false then s.enterReady else s := by
  have e1 : s.lookAtRefresh = s := by
    unfold State.lookAtRefresh
    rw [h]
  have e2 : s.endSetModeIfNothingToLoad = s := by
    unfold State.endSetModeIfNothingToLoad
    rw [if_neg (by simp [h])]
  unfold State.proceed
  rw [e1, e2]
  unfold State.endRestore
  rw [h]
  simp [hc]

/-- Between probes an urgent claim may suspend an alignment, and changes nothing else (R158). -/
theorem State.suspendForRefresh_spec (s : State) :
    s.suspendForRefresh = s ∨
      (s.ctrl.progress = .probing ∧ s.ctrl.arrayState = .aligning ∧
        s.suspendForRefresh = { s with ctrl.progress := .suspendClear }) := by
  unfold State.suspendForRefresh
  split
  · rename_i h
    simp only [Bool.and_eq_true, decide_eq_true_eq] at h
    exact Or.inr ⟨h.1.1.1, h.2, rfl⟩
  · exact Or.inl rfl

/-- After a probe of an alignment that goes on, the next one is due at once, or an urgent claim
suspends the alignment, or nothing happens (R155, R158). -/
theorem State.nextProbe_spec (s : State) :
    (s.mayProbe = true ∧ s.nextProbe = { s with ctrl.progress := .probeDue }) ∨
      (s.mayProbe = false ∧ s.nextProbe = s.suspendForRefresh) := by
  unfold State.nextProbe
  cases s.mayProbe <;> simp

/-- A record burst job can only end on the read hold (R89). -/
theorem State.endHeldBurst_spec (s : State) :
    s.endHeldBurst = s ∨
      (s.sched.job = some .recordBurst ∧ s.holdInForce = true ∧
        s.endHeldBurst = { s with sched.job := none }) := by
  unfold State.endHeldBurst
  split
  · split
    · split
      · rename_i hj _ _ _ _ h
        simp only [Bool.and_eq_true] at h
        exact Or.inr ⟨hj, h.1.2, rfl⟩
      · exact Or.inl rfl
    · exact Or.inl rfl
  · exact Or.inl rfl

end Sys2Proof.Machine
end

