-- ==== Sys2Proof/Tests/Slice0.lean ====
section
/-! SUPPORT. Tests: the smoke of WellFormed, small runs of one command from the manual's examples, and
for each obligation that has hypotheses a state and operands that meet them. -/

namespace Sys2Proof.Tests
open Sys2Proof Sys2Proof.Machine

/-! ### Small states -/

/-- The state that a command leaves; the reset state if it left none. -/
def after (s : State) (c : Instr) : State :=
  match exec c s with
  | .next t => t
  | _ => State.reset

/-- A READY array with the reset settings, no timer running and every bank CLOSED. -/
def ready : State :=
  { State.reset with
    now := 100
    refresh.timer := some 3220
    setup.appliedDiv := some 2
    ctrl.arrayState := .ready
    ctrl.copies := #v[some 6, some 0, some 5, some 0]
    ctrl.arrayReset := false
    ctrl.clockEnable := true }

/-- A DOZING array. -/
def dozing : State :=
  { ready with ctrl.arrayState := .dozing, ctrl.clockEnable := false }

/-- A DOZING array whose wake is in progress. -/
def wakingUp : State :=
  { dozing with
    ctrl.progress := .waking 106, ctrl.clockEnable := true, sched.job := some .procedure }

/-- A RETAINING array with the RETAIN_MIN window over. -/
def retaining : State :=
  { ready with
    ctrl.arrayState := .retaining, ctrl.clockEnable := false, refresh.timer := none }

/-- The submission registers of a post. -/
def submit (s : State) (tag kind close address length slot : Nat) : State :=
  { s with
    bus.subCtrl := BitVec.ofNat 15 (tag + kind * 256 + close * 2048)
    bus.subAddrLo := BitVec.ofNat 16 address
    bus.subAddrHi := BitVec.ofNat 12 (address / 65536)
    bus.subLength := BitVec.ofNat 10 length
    bus.subSlot := BitVec.ofNat 5 slot
    bus.subPattern := 0xA5A5 }

/-- A setting selected by PARAM_SEL. -/
def select (s : State) (n : BitVec 5) : State := { s with bus.paramSel := n }

/-- A request of 16 words at column 0 of bank 2, row 40 (section 4.9). -/
def request (kind : Kind) : Request where
  tag := 7
  kind := kind
  address := 40 * 8192 + 2 * 1024
  length := 16
  slot := if kind = .fill then none else some 4
  closeOption := .policy
  urgent := false
  notify := true
  pattern := if kind = .fill then some 0xA5A5 else none

/-- That request ACTIVE at a position. -/
def running (kind : Kind) (position : Nat) : Active where
  req := request kind
  seq := 3
  age := 0
  paused := false
  segment := 0
  wordsDone := 0
  position := position
  tally := ⟨0, none⟩
  aborting := false

/-- That request QUEUED. -/
def waiting (kind : Kind) (tag : Byte) (age : Nat) : Queued where
  req := { request kind with tag := tag }
  seq := 4
  age := age

/-- A bank open at a row with every window over. -/
def openAt (row : Nat) : Bank :=
  { Bank.reset with state := .opened, openRow := some row }

/-- The ACTIVE record's burst job with its bank open. -/
def bursting (kind : Kind) (position : Nat) : State :=
  { ready with
    pool.active := some (running kind position)
    table.banks := ready.table.banks.set 2 (openAt 40)
    sched.job := some .recordBurst }

/-- A burst of 8 words of that request in flight from column 0, done at AC 110. -/
def burst (isWrite : Bool) (user : BurstUser) : Burst where
  isWrite := isWrite
  user := user
  bank := 2
  row := 40
  base := 40 * 8192 + 2 * 1024
  length := 8
  data := if isWrite then [1, 2, 3, 4, 5, 6, 7, 8] else []
  first := 0
  count := 8
  endsSegment := false
  done := 110
  delays := #v[32, 32]

/-- A capture run on a ring of 4 chunks at row 384 of bank 0 (section 7.13), with `n` words. -/
def capturing (s : State) (n : Nat) : State :=
  { s with
    capture.state := .running
    capture.fifo := List.replicate n 9
    capture.base := 0x0300000
    capture.size := 4
    capture.mark := 64 }

/-- An alignment between probes, in align mode. -/
def aligning : State :=
  { ready with
    ctrl.arrayState := .aligning
    ctrl.indication := .aligning
    ctrl.progress := .probing
    ctrl.copies := #v[some 6, some 0x0080, some 5, some 0]
    ctrl.lanes := #v[⟨.none, none, [false], true⟩, ⟨.locked, some 3, [true], false⟩]
    ctrl.nextTap := 63
    sched.job := some .procedure }

/-- A DOZE entry in READY whose drain claim stands, with a wake cause's balance one below the level. -/
def entering : State :=
  { ready with ctrl.progress := .draining .doze, refresh.balance := 5 }

/-- A doze entry whose drain has been granted. -/
def enteringGranted : State :=
  { entering with ctrl.progress := .shutAll .doze, sched.job := some .procedure }

/-! ### WellFormed -/

theorem test_wf_refuses_a_register_with_a_row_of_its_own :
    (Instr.plainRegisterWrite 0x06 0).wellFormed = false ∧
    (Instr.plainRegisterWrite 0x0E 0).wellFormed = false ∧
    (Instr.plainRegisterWrite 0x21 0).wellFormed = false := by decide

theorem test_wf_refuses_a_command_code_as_unknown :
    (Instr.unknownCommandWrite 1).wellFormed = false ∧
    (Instr.unknownCommandWrite 11).wellFormed = false := by decide

theorem test_wf_takes_the_boundary_terms :
    (Instr.plainRegisterWrite 0x05 0).wellFormed = true ∧
    (Instr.plainRegisterWrite 0x3F 0).wellFormed = true ∧
    (Instr.unknownCommandWrite 0).wellFormed = true ∧
    (Instr.unknownCommandWrite 12).wellFormed = true := by decide

theorem test_no_word_spells_a_command : decodeTableWord 16 1 = none := rfl

/-! ### The manual's examples, one command each -/

/-- Example 2.8, post a. -/
theorem test_post_accepted :
    let t := after (submit ready 10 0 0 0x0A3C5F2 100 0) (.post 0)
    t.bus.submitStatus = .accepted ∧ t.pool.free = 15 ∧ t.staging.owner[0] = some 10 ∧
      t.staging.owner[1] = some 10 ∧ t.staging.owner[2] = none ∧ t.pool.counter = 1 := by
  decide +kernel

/-- Example 2.8, post c. -/
theorem test_post_refused :
    (after (submit ready 12 1 0 0x0200010 30 3) (.post 0)).bus.submitStatus = .lengthFault := by
  decide +kernel

/-- Example 3.7, step 4: words 191 and 192. -/
theorem test_data_port_write :
    let s := { ready with
      bus.dpPtr := 191, staging.owner := ready.staging.owner.set 3 (some 21) }
    let t := after s (.dataPortWrite 0x1234)
    let u := after t (.dataPortWrite 0x5678)
    t.staging.words = [(191, 0x1234)] ∧ u.staging.words = [(191, 0x1234)] ∧
      u.bus.dpPtr = 193 ∧ u.events.record = some ⟨.portFault, 192, 0⟩ := by decide +kernel

theorem test_data_port_read :
    let s := { ready with bus.dpPtr := 2047, staging.words := [(2047, 0x1234)] }
    let t := after s .dataPortRead
    t.bus.dataOut = some 0x1234 ∧ t.bus.dpPtr = 0 := by decide +kernel

/-- R47: 0800h points to 0. -/
theorem test_pointer_write :
    (after ready (.dataPortPointerWrite 0x0800)).bus.dpPtr = 0 ∧
    (after ready (.dataPortPointerWrite 0xFFFF)).bus.dpPtr = 2047 := by decide +kernel

/-- Example 10.7: the consumer write of 40, the empty release, PULLIN_FLOOR +3. -/
theorem test_faults_of_the_example :
    let t := after (capturing ready 0) (.consumerWrite 40)
    let u := after t (.release 0)
    let v := after (select u 25) (.refreshSettingWrite 3)
    t.events.record = some ⟨.consumerFault, 1, 0⟩ ∧ u.events.record = some ⟨.consumerFault, 1, 1⟩ ∧
      v.events.record = some ⟨.consumerFault, 1, 2⟩ ∧ v.flag .fault = true ∧
      v.refresh.pullinFloor = -2 := by decide +kernel

/-- Example 10.7: the acknowledge of FAULT. -/
theorem test_acknowledge :
    let s := { ready with
      events := ⟨0x84, 0x83, some ⟨.consumerFault, 1, 2⟩⟩ }
    s.intAsserted = true ∧ (after s (.eventAcknowledge 0x80)).events = ⟨0x04, 0x83, none⟩ ∧
      (after s (.eventAcknowledge 0x80)).intAsserted = false := by decide +kernel

/-- Example 7.13: consumer write 64 on a full ring. -/
theorem test_consumer_write :
    let s := { capturing ready 256 with capture.producer := 96 }
    (after s (.consumerWrite 64)).capture.consumer = 64 ∧
      (after s (.consumerWrite 64)).capture.fill = 32 := by decide +kernel

/-- Example 7.13, part 2: 103 words are padded with 25. -/
theorem test_capture_stop_pads :
    let t := after { capturing ready 103 with capture.assembler := some 1 } .captureStop
    t.capture.fifo.length = 128 ∧ t.capture.pad = 25 ∧ t.capture.state = .draining ∧
      t.capture.assembler = none := by decide +kernel

/-- R118: low half first. -/
theorem test_captured_word :
    (after { capturing ready 0 with capture.assembler := some 0x34 }
      (.captureByteArrival 0x12)).capture.fifo = [0x1234] := by decide +kernel

/-- Example 8.2 at the reset values: RESET_HOLD lasts 131072 AC. -/
theorem test_start_array :
    let t := after State.reset .startArray
    t.ctrl.arrayState = .starting ∧ t.ctrl.progress = .resetHold 131072 ∧
      t.setup.appliedDiv = some 2 := by decide +kernel

theorem test_reset_hold_ends :
    let t := after (after State.reset .startArray) .resetHoldExpiry
    t.now = 131072 ∧ t.ctrl.arrayReset = false ∧ t.ctrl.progress = .wakePhase 196608 := by
  decide +kernel

theorem test_unknown_command :
    (after ready (.unknownCommandWrite 12)).events.record = some ⟨.commandFault, 12, 0⟩ := by
  decide +kernel

/-- Section 4.9: ROW_OPEN of bank 2 at row 40 at AC 0. -/
theorem test_row_open :
    let s := { bursting .write 0 with now := 0, table := Table.reset }
    let t := after s .rowOpen
    t.bank 2 = { Bank.reset with
      state := .opening, openRow := some 40, openDelayEnd := some 6, minOpenEnd := some 15 } ∧
      t.table.openSpacing = some 4 := by decide +kernel

/-- Section 4.9: the first WRITE_BURST at AC 6 ends its data at AC 15. -/
theorem test_write_burst :
    let t := after { bursting .fill 0 with now := 6 } .writeBurst
    t.sched.inFlight.map (fun x => (x.done, x.length)) = [(15, 8)] ∧ t.sched.lastWriteEnd = 15 ∧
      (t.bank 2).writeRecovery = .pending ∧ t.sched.job = none := by decide +kernel

/-- Section 4.9, case 2: a READ_BURST at AC 19 after write data that ended there completes at 29. -/
theorem test_read_burst :
    let t := after { bursting .read 0 with now := 19, sched.lastWriteEnd := 19 } .readBurst
    t.now = 19 ∧ t.sched.inFlight.map (fun x => x.done) = [29] ∧
      (t.bank 2).readToShutEnd = some 23 := by decide +kernel

theorem test_write_completion :
    let s := { bursting .write 8 with
      sched.job := none, sched.inFlight := [burst true .record] }
    let t := after s .writeBurstCompletion
    t.now = 110 ∧ t.array.words.length = 8 ∧ (t.bank 2).writeRecovery = .ends 116 ∧
      t.pool.active.map (fun a => a.wordsDone) = some 8 := by decide +kernel

/-- Section 1.3: the READ of 96 words at 0A3C7E3h begins with a burst of 8 that keeps 5 words. -/
theorem test_first_block :
    let r := { request .read with address := 0x0A3C7E3, length := 96 }
    (r.blockAt Geometry.reset 0).map (fun x => (x.bank, x.row, x.column, x.length, x.count)) =
      some (1, 1310, 992, 8, 5) ∧
    (r.blockAt Geometry.reset 93).map (fun x => (x.bank, x.column, x.length, x.count)) =
      some (2, 64, 4, 3) := by decide +kernel

/-- Section 9.5: RENEW at AC 10 brings the balance to -1. -/
theorem test_renew :
    let t := after { ready with now := 10, sched.job := some .pullIn } .renew
    t.refresh.balance = -1 ∧ t.table.renewWindow = some 114 ∧ t.sched.job = none := by
  decide +kernel

/-- Section 9.5: the refresh period that wakes the array, and the end of that wake. -/
theorem test_wake_by_refresh :
    let s := { dozing with refresh.balance := 5, refresh.timer := some 26460 }
    let t := after s .refreshPeriodExpiry
    let u := after t .wakeEnd
    t.ctrl.progress = .waking 26466 ∧ t.port = some ⟨.napOut, 26460⟩ ∧ u.now = 26466 ∧
      u.ctrl.arrayState = .ready := by decide +kernel

theorem test_commands_of_the_clock_domain :
    (after ready .setMode).ctrl.arrayState = .setting ∧
    (after ready .align).ctrl.arrayState = .aligning ∧
    (after ready .retainEnter).ctrl.indication = .retainPending ∧
    (after ready .retainExit).bus.outcome = .state := by decide +kernel

theorem test_probe_completion_locks :
    let s := { ready with
      ctrl.arrayState := .aligning
      ctrl.progress := .probing
      ctrl.lanes := #v[⟨.none, none, [false], true⟩, ⟨.none, none, [true], true⟩]
      ctrl.probe := some ⟨116, 1, #v[1, 1]⟩ }
    let t := after s (.strobeProbeCompletion true true)
    t.ctrl.lanes = #v[⟨.locked, some 1, [false, true], false⟩, ⟨.none, none, [true, true], true⟩] ∧
      t.ctrl.delays = #v[1, 32] := by decide +kernel

/-- Section 4.10: CLOSE_ALL marks the OPEN and OPENING banks and leaves a SHUTTING one. -/
theorem test_close_all :
    let shutting : Bank := { Bank.reset with state := .shutting, closeTimeEnd := some 103 }
    let opening : Bank := { Bank.reset with
      state := .opening, openRow := some 9, openDelayEnd := some 104, minOpenEnd := some 113 }
    let s := { ready with
      table.banks := ((ready.table.banks.set 0 (openAt 5)).set 1 shutting).set 2 opening }
    let t := after s .closeAll
    t.bank 0 = { openAt 5 with mark := true } ∧ t.bank 1 = shutting ∧
      t.bank 2 = { opening with mark := true } ∧ t.bank 3 = Bank.reset := by decide +kernel

/-- Section 3.7, step 6: an ABORT with a burst in flight, and that burst's completion. -/
theorem test_abort :
    let s := { bursting .fill 8 with sched.inFlight := [burst true .record] }
    let t := after s .abort
    let u := after t .writeBurstCompletion
    t.pool.active.map (fun a => a.aborting) = some true ∧ t.sched.job = none ∧
      u.pool.done = [⟨7, .fill, 3, .aborted, 8, none, none⟩] ∧ u.flag .completion = true := by
  decide +kernel

/-- Section 7.13: the chunk at 32 brings the producer to the mark. -/
theorem test_chunk_advance :
    let s := { capturing ready 32 with
      capture.producer := 32
      sched.job := some (.chunk 3)
      table.banks := ready.table.banks.set 0 (openAt 384) }
    let t := after s .writeBurst
    t.capture.producer = 64 ∧ t.capture.fifo = [] ∧ t.flag .mark = true ∧ t.sched.job = none ∧
      t.port = some ⟨.writeBurst 0 56 8, 100⟩ := by decide +kernel

theorem test_capture_start_checks_the_ring :
    (after ready .captureStart).bus.outcome = .ringFault ∧
    (after { capturing ready 0 with capture.state := .idle } .captureStart).capture.state =
      .running := by decide +kernel

/-- Section 9.10: RETAIN_EXIT held at AC 15 to AC 18, with a changed divisor. -/
theorem test_retain_exit :
    let s := { retaining with
      now := 15, ctrl.retainMin := some 18, setup.pendingDiv := 1 }
    let t := after s .retainExit
    let u := after t .retainMinExpiry
    let v := after u .retainExitTimeExpiry
    t.ctrl.exitHeld = true ∧ u.ctrl.progress = .exitTime 130 true ∧ u.setup.appliedDiv = some 1 ∧
      v.now = 130 ∧ v.ctrl.readHold = some 642 ∧ v.table.modeSettle = some 142 ∧
      (after v .modeSettleExpiry).ctrl.arrayState = .ready := by decide +kernel

theorem test_soft_reset :
    let s := { capturing ready 40 with pool.queued := [waiting .read 1 0], events.flags := 0xFF }
    let t := after s .softReset
    t.pool.queued = [] ∧ t.capture.state = .idle ∧ t.events.flags = 0 ∧
      t.bus.softPending = false ∧ t.capture.size = 4 := by decide +kernel

/-! ### States that meet the hypotheses of the obligations -/

theorem witness_StepTakesTheFrontCommand :
    ({ State.reset with pending := [.dataPortRead, .post 0] } : State).pending =
      .dataPortRead :: [.post 0] := rfl

theorem witness_EmptyQueueTakesAnOwnEventOrPassesOneAC :
    ready.pending = [] ∧ { ready with resetLow := true }.resetLow = true ∧
    (let s : State := { ready with refresh.balance := -2 }
     s.pending = [] ∧ s.resetLow = false ∧ s.firstDue ++ s.ownDue = [] ∧
      s.setup.appliedDiv = some 2) ∧
    (State.reset.firstDue ++ State.reset.ownDue = [] ∧ State.reset.setup.appliedDiv = none) ∧
    (ready.firstDue = [] ∧ ready.firstDue ++ ready.ownDue ≠ []) ∧
    { ready with now := 200, table.openSpacing := some 200 }.firstDue ≠ [] := by decide +kernel

theorem witness_NothingIsTakenWhileResetIsLow :
    (after ready .hardwareReset).resetLow = true ∧ Instr.align ≠ .hardwareReset ∧
      Instr.align ≠ .resetRelease := by decide +kernel

theorem witness_WindowReadsTheResetValues :
    let s : State := { bursting .compare 8 with
      bus.paramSel := 18
      pool.done := [⟨0x15, .compare, 2, .mismatch, 9, some true, some (3, 2)⟩]
      events.record := some ⟨.delayBusy, 31, 255⟩
      staging.owner := ready.staging.owner.set 31 (some 7)
      ctrl.lanes := #v[⟨.locked, some 3, [true, false, true, true], false⟩, Lane.reset] }
    (0x00 : BitVec 6) ≠ 0x0D ∧ (0x3F : BitVec 6) ≠ 0x0D ∧
    State.reset.readRegister 0x3F = some 0x2416 ∧
    (after ready .hardwareReset).resetLow = true ∧ s.resetLow = false ∧ s.pool.done ≠ [] ∧
    s.readRegister 0x08 = some 0xE315 ∧ s.readRegister 0x0A = some 3 ∧
    s.readRegister 0x0B = some 2 ∧ s.readRegister 0x11 = some 256 ∧
    s.readRegister 0x14 = some 0xFF05 ∧ s.readRegister 0x17 = some 0x8000 ∧
    s.readRegister 0x18 = some 0x0020 ∧ s.readRegister 0x1A = some 7 ∧
    s.readRegister 0x34 = some 1 ∧ s.readRegister 0x37 = some 0x000D ∧
    ready.pool.active = none ∧ ready.pool.done = [] ∧ ready.events.record = none ∧
    (ready.bus.paramSel.toNat = (0 : Fin 19).val) ∧
    ((select ready 31).bus.paramSel.toNat = 30 + (1 : Fin 2).val) ∧
    s.ctrl.copies.get 1 = some 0 ∧ State.reset.ctrl.copies.get 1 = none := by decide +kernel

/-- Each of the ten submit statuses of a post is reached. -/
theorem witness_PostReportsTheFirstFailingCheck :
    let status (s : State) := (after s (.post 0)).bus.submitStatus
    let many := (List.range 16).map fun n => waiting .read (BitVec.ofNat 8 n) 0
    let full : State := { ready with pool.queued := many }
    ready.resetLow = false ∧ status full = .poolFull ∧ status State.reset = .notReady ∧
    status (submit ready 1 4 0 0 1 0) = .badKind ∧ status (submit ready 1 0 3 0 1 0) = .badKind ∧
    status (submit { ready with pool.active := some (running .read 0) } 7 0 0 0 1 0) = .tagBusy ∧
    status (submit ready 1 0 0 0 513 0) = .lengthFault ∧
    status (submit ready 1 1 0 2 4 0) = .alignFault ∧
    status (submit ready 1 0 0 0x4000000 1 0) = .rangeFault ∧
    status (submit ready 1 0 0 0 65 31) = .slotFault ∧
    status (submit { ready with staging.owner := ready.staging.owner.set 31 (some 9) } 1 0 0 0 1 31) =
      .slotBusy ∧
    status (submit ready 1 2 0 0 4 31) = .accepted := by decide +kernel

theorem witness_RefusedPostChangesOnlyTheStatus :
    State.reset.resetLow = false ∧
      exec (.post 0) State.reset = .next (after State.reset (.post 0)) ∧
      (after State.reset (.post 0)).bus.submitStatus ≠ .accepted :=
  ⟨rfl, rfl, by decide +kernel⟩

theorem witness_AcceptedPostQueuesTheRecord :
    let s := submit ready 10 0 0 0x3FFFFFF 1 31
    s.resetLow = false ∧ s.checkPost = .accepted ∧ s.bus.submission.isSome = true ∧ NoWake s ∧
      (let u := submit wakingUp 10 2 0 0 4 0
       u.checkPost = .accepted ∧ u.bus.submission.isSome = true ∧ NoWake u) := by
  unfold NoWake
  decide +kernel

theorem witness_ReleaseFreesTheHead :
    let s := { ready with pool.done := [⟨1, .read, 0, .done, 5, some false, none⟩] }
    s.resetLow = false ∧ s.pool.done ≠ [] ∧ s.pool.live ≤ 16 ∧ s.pool.tags.Nodup := by
  decide +kernel

theorem witness_EmptyReleaseFaults : ready.resetLow = false ∧ ready.pool.done = [] := by
  decide +kernel

theorem witness_DataPortMovesTheWordAtThePointer :
    (let s : State := { ready with bus.dpPtr := 2047 }
     s.resetLow = false ∧ s.staging.owner[s.bus.dpPtr.toNat / 64]? = some none) ∧
    (let s : State := { ready with staging.owner := ready.staging.owner.set 0 (some 21) }
     s.resetLow = false ∧ s.staging.owner[s.bus.dpPtr.toNat / 64]? = some (some 21)) := by
  decide +kernel

theorem witness_TimingParameterIsStoredInItsRange :
    ((select ready 0).bus.paramSel.toNat = (0 : Fin 19).val ∧
      (after (select ready 0) (.timingParameterWrite 31)).setup.host[0] = 31 ∧
      (after (select ready 0) (.timingParameterWrite 32)).setup.host[0] = 6) ∧
    ((select ready 18).bus.paramSel.toNat = (18 : Fin 19).val ∧
      (after (select ready 18) (.timingParameterWrite 8)).setup.host[18] = 8 ∧
      (after (select ready 18) (.timingParameterWrite 7)).setup.host[18] = 256) := by
  decide +kernel

theorem witness_SettingsAreStoredOrFault :
    ready.resetLow = false ∧ (select ready 19).bus.paramSel = 19 ∧ (4 : Word) ∈ [1, 2, 4] ∧
    (3 : Word) ∉ [1, 2, 4] ∧ (select ready 20).bus.paramSel = 20 ∧
    (32768 : Word) ∈ [4096, 8192, 16384, 32768] ∧ (0 : Word) ∉ [4096, 8192, 16384, 32768] ∧
    (select ready 21).bus.paramSel = 21 ∧ (512 : Word) ∈ [512, 1024] ∧
    (2048 : Word) ∉ [512, 1024] ∧ (select ready 22).bus.paramSel = 22 ∧ 2 < (3 : Word).toNat ∧
    (select ready 23).bus.paramSel = 23 ∧ (15 : Word).toNat ≤ 15 ∧ 15 < (16 : Word).toNat ∧
    (select ready 24).bus.paramSel = 24 ∧ 1 ≤ (8 : Word).toNat ∧ (8 : Word).toNat ≤ 8 ∧
    ready.refresh.balance < (8 : Word).toNat ∧ 8 < (9 : Word).toNat ∧
    (select ready 25).bus.paramSel = 25 ∧ -8 ≤ (0xFFF8 : Word).toInt ∧
    (0xFFF8 : Word).toInt ≤ 0 ∧ 0 < (1 : Word).toInt ∧ (0xFFF7 : Word).toInt < -8 ∧
    (select ready 29).bus.paramSel = 29 ∧ (1 : Word).toNat ≤ 1 ∧ 1 < (2 : Word).toNat ∧
    NoWake ready ∧ ready.ctrl.progress ≠ .probing ∧
    (let s := select { aligning with refresh.balance := 5 } 24
     s.bus.paramSel = 24 ∧ ((5 : Word).toNat : Int) ≤ s.refresh.balance ∧
      s.ctrl.progress = .probing ∧ s.ctrl.probe = none ∧ s.ctrl.arrayState = .aligning ∧
      (after s (.refreshSettingWrite 5)).ctrl.progress = .suspendClear) := by
  unfold NoWake
  decide +kernel

theorem witness_RingDescriptorFollowsTheCaptureState :
    (ready.capture.state = .idle ∧ (select ready 26).bus.paramSel = 26) ∧
    (let s := select (capturing ready 0) 28
     s.capture.state ≠ .idle ∧ s.bus.paramSel = 28 ∧
      (s.bus.writeExt ++ (96 : Word)).toNat % 32 = 0 ∧
      (s.bus.writeExt ++ (96 : Word)).toNat < s.capture.size.toNat * 32 ∧
      ¬ (s.bus.writeExt ++ (128 : Word)).toNat < s.capture.size.toNat * 32) := by decide +kernel

theorem witness_LaneDelayIsBusyDuringAnAlignment :
    let s := select ready 31
    s.resetLow = false ∧ s.bus.paramSel.toNat = 30 + (1 : Fin 2).val ∧
    { s with ctrl.arrayState := .aligning }.ctrl.arrayState = .aligning ∧
    (s.ctrl.arrayState ≠ .aligning ∧ s.ctrl.arrayState ≠ .starting ∧ (63 : Word).toNat ≤ 63 ∧
      63 < (64 : Word).toNat) ∧
    (let u := { s with ctrl.arrayState := .starting, ctrl.progress := .endSettle }
     u.ctrl.arrayState = .starting ∧
      u.ctrl.progress ∈ [Progress.due .align, .probing, .probeDue, .endClear, .endSettle]) := by
  decide +kernel

theorem witness_PlainWritesStoreTheirBits :
    ready.resetLow = false ∧ (0 : Fin 4) ≠ 1 ∧
      (0x3F : BitVec 6) ∉ [0x00, 0x01, 0x02, 0x03, 0x04, 0x05, 0x0F, 0x10] := by decide +kernel

theorem witness_ConsumerWriteMovesOverWrittenChunks :
    let s := { capturing ready 0 with capture.producer := 96 }
    s.resetLow = false ∧ NoWake s ∧
    (96 = s.capture.producer) ∧ s.capture.consumerPasses 64 = true ∧
    s.capture.consumerPasses 100 = false ∧
    (let u := { capturing dozing 31 with capture.producer := 96 }
     u.capture.consumerPasses 32 = true ∧
      ({ u.capture with consumer := 32 } : Capture).demand = false) := by
  unfold NoWake
  decide +kernel

theorem witness_EveryWriteCycleIsACommand :
    ready.resetLow = false ∧ (0 : Word) = 0 ∧ 11 < (12 : Word).toNat := by decide +kernel

theorem image_valid : ImageValid State.reset.ctrl.shadows := by
  unfold ImageValid; decide +kernel

theorem image_not_valid : ¬ ImageValid #v[4, 0, 5, 0] := by unfold ImageValid; decide +kernel

theorem witness_StartArrayBeginsTheStartUp :
    State.reset.resetLow = false ∧ State.reset.ctrl.arrayState = .cold ∧
    ImageValid State.reset.ctrl.shadows ∧
    ¬ ImageValid { State.reset with ctrl.shadows := #v[4, 0, 5, 0] }.ctrl.shadows ∧
    ready.ctrl.arrayState ≠ .cold :=
  ⟨rfl, rfl, image_valid, image_not_valid, by decide⟩

theorem witness_ProcedureCommandsInReadyRaiseTheDrain :
    ready.resetLow = false ∧ ready.ctrl.arrayState = .ready ∧ ready.ctrl.indication ≠ .retainPending ∧
    ImageValid ready.ctrl.shadows ∧ ready.ctrl.indication = .none ∧ ready.capture.state = .idle ∧
    enteringGranted.dozeEntry = true ∧ enteringGranted.sched.job = some .procedure :=
  ⟨rfl, rfl, by decide, image_valid, rfl, rfl, rfl, rfl⟩

theorem witness_ProcedureCommandsWakeADozingArray :
    dozing.resetLow = false ∧ dozing.ctrl.arrayState = .dozing ∧ dozing.waking = false ∧
    dozing.ctrl.indication ≠ .retainPending ∧ ImageValid dozing.ctrl.shadows ∧
    dozing.ctrl.indication = .none ∧ dozing.capture.state = .idle ∧
    wakingUp.ctrl.arrayState = .dozing ∧ wakingUp.waking = true :=
  ⟨rfl, rfl, rfl, by decide, image_valid, rfl, rfl, rfl, rfl⟩

/-- R169: NAP_OUT is issued at the command, and a wake in progress runs on to its own end. -/
theorem test_procedure_commands_in_dozing :
    (after dozing .align).now = 100 ∧ (after dozing .align).port = some ⟨.napOut, 100⟩ ∧
    (after dozing .align).ctrl.progress = .waking 106 ∧
    (after { dozing with port := some ⟨.napIn, 100⟩ } .align).now = 101 ∧
    (after { wakingUp with now := 103 } .setMode).ctrl.progress = .waking 106 ∧
    (after { wakingUp with now := 103 } .setMode).ctrl.arrayState = .setting ∧
    (after { wakingUp with now := 103 } .retainEnter).ctrl.indication = .retainPending := by
  decide +kernel

theorem witness_RetainExitIsHeldOrBegins :
    retaining.resetLow = false ∧ retaining.ctrl.arrayState = .retaining ∧
    retaining.ctrl.exitHeld = false ∧ retaining.ctrl.progress = .idle ∧
    retaining.ctrl.retainMin = none ∧
    { retaining with ctrl.retainMin := some 101 }.ctrl.retainMin = some 101 ∧
    (let s := { retaining with ctrl.retainMin := some 100 }
     s.ctrl.retainMin = some s.now ∧ (after s .retainExit).ctrl.exitHeld = true) := by decide +kernel

theorem witness_CloseAllMarksAndClearRetentionClears :
    ready.resetLow = false ∧ ready.ctrl.arrayState = .ready ∧ ready.ctrl.progress ≠ .draining .doze ∧
    ready.ctrl.arrayState ≠ .cold ∧ entering.ctrl.progress = .draining .doze ∧
    (∀ b : Fin 8, (entering.bank b).state = .closed) ∧
    ({ entering with table.banks := ready.table.banks.set 2 (openAt 40) }.bank 2).state = .opened := by
  decide +kernel

theorem witness_AbortFinishesTheWaitingRecords :
    let s := { bursting .read 8 with
      pool.queued := [waiting .write 8 0], sched.inFlight := [burst false .record] }
    s.resetLow = false ∧ s.ctrl.arrayState ≠ .cold ∧ ready.pool.active = none ∧
    s.pool.active = some (running .read 8) ∧ s.sched.job = some .recordBurst ∧
    s.sched.inFlight.any (fun x => x.user = .record) = true ∧
    (bursting .read 8).sched.inFlight.any (fun x => x.user = .record) = false ∧
    (bursting .read 8).pool.active = some (running .read 8) ∧ (running .read 8).req.notify = true ∧
    (waiting .write 8 0 ∈ s.pool.queued ∧ (waiting .write 8 0).req.slot = some 4 ∧
      (waiting .write 8 0).req.notify = true) ∧
    (after (bursting .read 8) .abort).pool.done =
      [⟨7, .read, 3, .aborted, 0, some false, none⟩] ∧
    (after (bursting .read 8) .abort).sched.job = none := by decide +kernel

/-- The span of that request is slot 4 and no other. -/
theorem witness_AbortFinishesTheWaitingRecords_span :
    SpanCovers (running .read 8).req 4 ∧ ¬ SpanCovers (running .read 8).req 5 := by
  constructor
  · exact ⟨4, rfl, by decide, by decide⟩
  · rintro ⟨slot, e, _, h⟩
    have e : 4 = slot := Option.some.inj e
    subst e
    exact absurd h (by decide)

theorem witness_CaptureRunsBeginAndEnd :
    (let s := { capturing ready 0 with capture.state := .idle }
     s.resetLow = false ∧ s.capture.state = .idle ∧ s.ctrl.indication ≠ .retainPending ∧
      s.ctrl.arrayState ∈ [ArrayState.ready, .setting, .aligning, .dozing] ∧
      s.capture.base.toNat % 32 = 0 ∧ 2 ≤ s.capture.size.toNat ∧
      s.capture.base.toNat + s.capture.size.toNat * 32 ≤
        s.setup.workGeometry.rows * 8 * s.setup.workGeometry.cols ∧
      s.capture.mark.toNat % 32 = 0 ∧ s.capture.mark.toNat < s.capture.size.toNat * 32) ∧
    ((capturing ready 0).capture.state = .running ∧ (capturing ready 0).capture.fifo = []) ∧
    ((capturing ready 1).capture.fifo ≠ [] ∧ NoWake (capturing ready 1)) ∧
    (let u := { capturing dozing 1 with capture.producer := 96 }
     u.capture.state = .running ∧ u.capture.fifo ≠ [] ∧ u.capture.hasRoom = false) := by
  unfold NoWake
  decide +kernel

/-- A SOFT_RESET with nothing in flight in every array state (R162, R177). -/
theorem witness_SoftResetEmptiesTheHostSide :
    let at_ (a : ArrayState) (p : Progress) : State := { aligning with
      ctrl.arrayState := a, ctrl.progress := p, events.flags := 0x41 }
    let t (a : ArrayState) (p : Progress) : State := after (at_ a p) .softReset
    let pending (p : Progress) : State := { ready with
      ctrl.indication := .retainPending, ctrl.progress := p, sched.job := some .procedure }
    (at_ .cold .idle).resetLow = false ∧ (at_ .cold .idle).inFlight = false ∧
    (t .cold .idle).events.flags = 0 ∧ (t .cold .idle).ctrl.arrayState = .cold ∧
    (ready.ctrl.indication ≠ .retainPending ∧ ready.ctrl.progress = .idle ∧
      ready.inFlight = false ∧ enteringGranted.dozeEntry = true ∧
      enteringGranted.ctrl.arrayState = .ready ∧ enteringGranted.inFlight = false ∧
      (after enteringGranted .softReset).ctrl.progress = .idle ∧
      (after enteringGranted .softReset).sched.job = none) ∧
    ((pending (.shutAll .retain)).ctrl.arrayState = .ready ∧
      (pending (.shutAll .retain)).inFlight = false ∧
      (after (pending (.shutAll .retain)) .softReset).ctrl.indication = .none ∧
      (after (pending (.draining .retain)) .softReset).ctrl.progress = .idle) ∧
    (dozing.inFlight = false ∧ dozing.ctrl.progress = .idle ∧ wakingUp.waking = true ∧
      (after wakingUp .softReset).ctrl.progress = .waking 106 ∧
      (after wakingUp .softReset).sched.job = some .procedure ∧
      (after { wakingUp with ctrl.indication := .retainPending } .softReset).ctrl.indication =
        .none) ∧
    ((at_ .setting (.waking 106)).waking = true ∧
      (t .setting (.waking 106)).ctrl.progress = .waking 106 ∧
      (t .setting (.draining .setMode)).ctrl.progress = .idle ∧
      (t .setting .loading).ctrl.progress = .stopped true ∧
      (t .setting (.due .setMode)).ctrl.progress = .stopped false ∧
      (t .aligning .probing).ctrl.progress = .stopped false ∧
      (t .aligning .probing).ctrl.restoreDue = true ∧
      (t .aligning .probing).ctrl.lanes = #v[⟨.failed, none, [false], false⟩,
        ⟨.locked, some 3, [true], false⟩]) ∧
    ((t .starting (.lockPhase 600)).ctrl.arrayState = .cold ∧
      (t .starting (.lockPhase 600)).array.epoch = 1) ∧
    ((at_ .retaining (.exitTime 212 true)).ctrl.arrayState = .retaining ∧
      (t .retaining (.exitTime 212 true)).ctrl.progress = .exitTime 212 true ∧
      (t .retaining (.exitTime 212 true)).sched.job = some .procedure ∧
      (after { retaining with ctrl.exitHeld := true } .softReset).ctrl.exitHeld = false) := by
  decide +kernel

theorem witness_SoftResetWaitsForWhatIsInFlight :
    (let s : State := { ready with table.renewWindow := some 101, sched.job := some .pullIn }
     s.resetLow = false ∧ s.inFlight = true ∧ s.ctrl.progress = .idle ∧ s.waking = false ∧
      (after s .softReset).sched.job = none) ∧
    (let s : State := { wakingUp with sched.inFlight := [burst false .record] }
     s.inFlight = true ∧ s.waking = true ∧
      (after s .softReset).sched.job = some .procedure) ∧
    (let s (p : Progress) : State := { ready with
       table.renewWindow := some 101, ctrl.indication := .retainPending, ctrl.progress := p }
     (s (.due .retain)).inFlight = true ∧
      (after (s (.due .retain)) .softReset).ctrl.progress = .due .retain ∧
      (after (s (.draining .retain)) .softReset).ctrl.progress = .draining .retain) ∧
    (let s : State := { aligning with
       table.renewWindow := some 101, ctrl.progress := .suspendRenew }
     s.inFlight = true ∧ (after s .softReset).ctrl.progress = .stopped false) ∧
    (let s := { entering with table.renewWindow := some 101 }
     s.inFlight = true ∧ s.dozeEntry = true ∧ entering.inFlight = false ∧
      entering.ctrl.arrayState = .ready) ∧
    (let s (p : Progress) : State := { ready with
       ctrl.arrayState := .setting, ctrl.progress := p, sched.job := some .procedure }
     let stopped (p : Progress) : Progress := (after (s p) .softReset).ctrl.progress
     let flying : State := { s .loading with table.renewWindow := some 101 }
     (s .loading).inFlight = false ∧ flying.inFlight = true ∧
      (after flying .softReset).ctrl.progress = .stopped true ∧
      stopped .loading = .stopped true ∧ stopped (.restoreShut true) = .stopped true ∧
      stopped (.restoreShut false) = .stopped false ∧ stopped (.draining .setMode) = .idle ∧
      stopped (.shutAll .setMode) = .stopped false ∧
      stopped (.renewing .setMode) = .stopped false ∧ stopped (.due .setMode) = .stopped false ∧
      (let u : State := { s (.stopped true) with bus.softPending := true }
       (after u .softResetTakesEffect).ctrl.progress = .stopped true)) ∧
    (let s := { ready with bus.softPending := true }
     s.inFlight = false ∧ s.bus.softPending = true ∧ s.ctrl.arrayState ≠ .starting ∧
      s.dozeEntry = false ∧ s.ctrl.indication ≠ .retainPending ∧
      { s with ctrl.arrayState := .starting }.ctrl.arrayState = .starting ∧
      { s with ctrl.arrayState := .setting }.ctrl.arrayState = .setting) ∧
    (let s := { entering with bus.softPending := true }
     s.inFlight = false ∧ s.bus.softPending = true ∧ s.ctrl.arrayState = .ready ∧
      s.dozeEntry = true) ∧
    (let s := { ready with bus.softPending := true, ctrl.indication := .retainPending }
     s.dozeEntry = false ∧ s.waking = false ∧
      { s with ctrl.progress := .waking 106 }.waking = true) ∧
    (let s := { aligning with bus.softPending := true }
     s.inFlight = false ∧ s.ctrl.arrayState = .aligning ∧
      (s.ctrl.lanes.get 0).searching = true ∧ (s.ctrl.lanes.get 1).searching = false) ∧
    (let s : State := { aligning with
       ctrl.arrayState := .setting, ctrl.progress := .draining .setMode, bus.softPending := true }
     s.inFlight = false ∧ (after s .softResetTakesEffect).ctrl.progress = .idle ∧
      { s with ctrl.progress := .waking 106 }.waking = true) ∧
    { State.reset with bus.softPending := true }.ctrl.arrayState = .cold ∧
    { retaining with bus.softPending := true, ctrl.exitHeld := true }.ctrl.arrayState =
      .retaining := by decide +kernel

theorem witness_RefusedCommandsChangeOnlyTheStatus :
    State.reset.resetLow = false ∧
    State.reset.ctrl.arrayState ∉ [ArrayState.ready, .dozing] ∧
    (let s := { ready with ctrl.shadows := #v[4, 0, 5, 0] }
     ¬ (s.ctrl.arrayState ∉ [ArrayState.ready, .dozing] ∨ s.ctrl.indication = .retainPending)) ∧
    { ready with ctrl.indication := .retainPending }.ctrl.indication ≠ .none ∧
    { retaining with ctrl.exitHeld := true }.ctrl.exitHeld = true ∧
    State.reset.ctrl.arrayState = .cold ∧ (capturing ready 0).capture.state ≠ .idle ∧
    (¬ (ready.capture.state ≠ .idle ∨ ready.ctrl.indication = .retainPending ∨
        ready.ctrl.arrayState ∉ [ArrayState.ready, .setting, .aligning, .dozing]) ∧
      ¬ 2 ≤ ready.capture.size.toNat) ∧
    ready.capture.state ≠ .running := by decide +kernel

theorem witness_CaptureBytesMakeWords :
    ready.capture.state ≠ .running ∧ (capturing ready 255).capture.state = .running ∧
    (capturing ready 255).capture.assembler = none ∧
    { capturing ready 255 with capture.assembler := some 1 }.capture.assembler = some 1 ∧
    (capturing ready 255).capture.fifo.length < 256 ∧ NoWake (capturing ready 255) ∧
    256 ≤ (capturing ready 256).capture.fifo.length ∧
    (capturing dozing 30).capture.fifo.length < 31 ∧
    (let u := { capturing dozing 30 with capture.assembler := some 1 }
     (after u (.captureByteArrival 2)).ctrl.progress = .idle) ∧
    { capturing dozing 31 with capture.producer := 96 }.capture.hasRoom = false := by
  unfold NoWake
  decide +kernel

theorem witness_RefreshPeriodRaisesTheBalance :
    (ready.resetLow = false ∧ ready.refresh.timer = some 3220 ∧ NoWake ready ∧
      ready.refresh.balance + 1 < ready.refresh.urgentLevel ∧ ready.ctrl.progress ≠ .probing) ∧
    (dozing.refresh.timer = some 3220 ∧ (after dozing .refreshPeriodExpiry).refresh.balance = 1 ∧
      (after dozing .refreshPeriodExpiry).ctrl.progress = .idle ∧
      (let s : State := { dozing with refresh.balance := 8 }
       (s.refresh.urgentLevel : Int) ≤ s.refresh.balance ∧ s.waking = false ∧
        (after s .refreshPeriodExpiry).refresh.violations = 1 ∧
        (after s .refreshPeriodExpiry).port = some ⟨.napOut, 3220⟩) ∧
      (let s : State := { wakingUp with refresh.balance := 5, refresh.timer := some 104 }
       NoWake s ∧ (after s .refreshPeriodExpiry).ctrl.progress = .waking 106)) ∧
    (let s : State := { ready with refresh.balance := 8, sched.inFlight := [burst false .record] }
     s.refresh.balance ≤ 8 ∧ s.refresh.urgentLevel ≤ s.refresh.balance ∧ s.dozeEntry = false) ∧
    (let s : State := { aligning with refresh.balance := 5 }
     s.refresh.timer = some 3220 ∧ s.refresh.urgentLevel ≤ s.refresh.balance + 1 ∧
      s.ctrl.progress = .probing ∧ s.ctrl.probe = none ∧ s.ctrl.arrayState = .aligning ∧
      { s with ctrl.probe := some ⟨116, 0, #v[0, 0]⟩ }.ctrl.probe ≠ none) ∧
    (enteringGranted.refresh.timer = some 3220 ∧ enteringGranted.dozeEntry = true ∧
      enteringGranted.ctrl.arrayState ≠ .dozing ∧
      enteringGranted.refresh.urgentLevel ≤ enteringGranted.refresh.balance + 1) := by
  unfold NoWake
  decide +kernel

/-- R9: a violation in the last AC but one of a read's data interval leaves the four words captured
before it, and the read stores them; the words after it are unknown (log 33). -/
theorem test_captured_words_outlive_a_violation :
    let s : State := { bursting .read 8 with
      now := 108
      refresh.balance := 8
      refresh.timer := some 108
      sched.job := none
      sched.inFlight := [burst false .record]
      array.words := (List.range 8).map fun k => ((burst false .record).base + k, 7#16) }
    let t := after s .refreshPeriodExpiry
    let u := after t .readBurstCompletion
    t.array.words = [] ∧ t.sched.inFlight.map (fun x => x.data) = [[7, 7, 7, 7]] ∧
      (u.staging.words.take 4) = [(256, 7), (257, 7), (258, 7), (259, 7)] := by decide +kernel

/-- R103: an expiry that is taken late restarts the timer from its own point. -/
theorem test_refresh_period_keeps_its_points :
    (after { ready with now := 3221 } .refreshPeriodExpiry).refresh.timer = some 6340 := by
  decide +kernel

theorem witness_WakeCausesBeginAWake :
    dozing.resetLow = false ∧ dozing.ctrl.arrayState = .dozing ∧ dozing.waking = false ∧
    (submit dozing 10 2 0 0 4 0).checkPost = .accepted ∧
    (submit dozing 10 2 0 0 4 0).bus.submission.isSome = true ∧
    (let s := { capturing dozing 31 with capture.assembler := some 1 }
     s.capture.state = .running ∧ s.capture.assembler = some 1 ∧ s.capture.fifo.length < 256 ∧
      31 ≤ s.capture.fifo.length ∧ s.capture.hasRoom = true) ∧
    (let s := { capturing dozing 32 with capture.producer := 96 }
     let w := s.bus.writeExt.toNat % 32 * 65536 + (32 : Word).toNat
     s.capture.consumerPasses w = true ∧
      ({ s.capture with consumer := w } : Capture).demand = true) ∧
    (let s := { dozing with refresh.balance := 5 }
     s.refresh.timer = some 3220 ∧ s.refresh.balance < 8 ∧
      (s.refresh.urgentLevel : Int) ≤ s.refresh.balance + 1) ∧
    (let s := select { dozing with refresh.balance := 5 } 24
     s.bus.paramSel = 24 ∧ ((5 : Word).toNat : Int) ≤ s.refresh.balance) ∧
    (let s := capturing dozing 31
     s.capture.state = .running ∧ s.capture.fifo ≠ [] ∧ s.capture.hasRoom = true) ∧
    (entering.resetLow = false ∧ entering.ctrl.arrayState = .ready ∧ entering.dozeEntry = true ∧
      enteringGranted.dozeEntry = true) ∧
    (submit enteringGranted 10 2 0 0 4 0).checkPost = .accepted ∧
    (let s := { capturing entering 31 with capture.assembler := some 1 }
     s.dozeEntry = true ∧ s.capture.state = .running ∧ s.capture.assembler = some 1 ∧
      s.capture.fifo.length < 256 ∧ 31 ≤ s.capture.fifo.length ∧ s.capture.hasRoom = true ∧
      s.capture.fifo ≠ []) ∧
    (let s := { capturing entering 32 with capture.producer := 96 }
     let w := s.bus.writeExt.toNat % 32 * 65536 + (32 : Word).toNat
     s.capture.consumerPasses w = true ∧
      ({ s.capture with consumer := w } : Capture).demand = true) ∧
    (let s := select entering 24
     s.bus.paramSel = 24 ∧ ((5 : Word).toNat : Int) ≤ s.refresh.balance) := by decide +kernel

theorem witness_DozeBeginsWhenIdleAndEndsWithTheWake :
    (let s := { ready with ctrl.dozeTimer := some 200, refresh.balance := -2 }
     s.ctrl.dozeTimer = some 200 ∧ s.ctrl.progress = .idle ∧ s.pool.queued = [] ∧
      s.pool.active = none ∧ s.capture.demand = false ∧
      s.refresh.balance ≤ s.refresh.pullinFloor ∧ s.ctrl.indication = .none) ∧
    ¬ ready.refresh.balance ≤ ready.refresh.pullinFloor ∧
    (let s := { dozing with ctrl.progress := .waking 106 }
     s.ctrl.progress = .waking 106 ∧ s.ctrl.arrayState = .dozing ∧ s.ctrl.restoreDue = false ∧
      { s with ctrl.arrayState := .setting }.ctrl.arrayState = .setting ∧
      { s with ctrl.arrayState := .aligning }.ctrl.arrayState = .aligning ∧
      { s with ctrl.arrayState := .setting, ctrl.restoreDue := true }.ctrl.restoreDue = true) := by
  decide +kernel

theorem witness_WindowsExpireAtTheirPoints :
    let e : Bank := { Bank.reset with
      openDelayEnd := some 106, closeTimeEnd := some 106, minOpenEnd := some 106
      writeRecovery := .ends 106, readToShutEnd := some 106 }
    let s := { ready with
      table.banks := ready.table.banks.set 7 e, table.openSpacing := some 106
      table.modeHold := some 106, table.modeSettle := some 106, table.renewWindow := some 106
      ctrl.readHold := some 106 }
    s.resetLow = false ∧ s.bank 7 = e ∧ s.sched.job ≠ some .recordBurst ∧
    s.ctrl.progress = .idle ∧ ready.allClosed = true ∧ s.table.openSpacing = some 106 ∧
    s.ctrl.readHold = some 106 ∧
    s.table.modeHold = some 106 ∧ s.table.modeSettle = some 106 ∧
    s.table.renewWindow = some 106 := by decide +kernel

/-- R89: a record burst job at its open delay's end, with a read hold in force and without one. -/
theorem witness_WindowsExpireAtTheirPoints_burst :
    let e : Bank := { Bank.reset with
      state := .opening, openRow := some 40, openDelayEnd := some 106, minOpenEnd := some 115 }
    let s : State := { bursting .read 0 with
      table.banks := ready.table.banks.set 2 e, ctrl.readHold := some 612 }
    s.resetLow = false ∧ (s.bank 2).openDelayEnd = some 106 ∧ s.sched.job = some .recordBurst ∧
    s.pool.active = some (running .read 0) ∧
    ((running .read 0).req.blockAt s.setup.workGeometry 0).map (fun x => (x.bank, x.row)) =
      some (2, 40) ∧
    s.ctrl.readHold = some 612 ∧ ready.ctrl.readHold = none ∧
    (bursting .write 0).pool.active = some (running .write 0) ∧
    (after s (.openDelayExpiry 2)).sched.job = none ∧
    (after { s with ctrl.readHold := none } (.openDelayExpiry 2)).sched.job =
      some .recordBurst := by decide +kernel

/-- A procedure's shut-all, a SET_MODE with nothing to load and a restore go on by themselves. -/
theorem witness_WindowsExpireAtTheirPoints_procedures :
    let shutting : Bank := { Bank.reset with state := .shutting, closeTimeEnd := some 106 }
    let s : State := { ready with
      sched.job := some .procedure, table.banks := ready.table.banks.set 2 shutting }
    let last (p : Progress) : State := { s with ctrl.progress := p }
    let more : State := { last (.shutAll .align) with
      table.banks := s.table.banks.set 5 (openAt 40) }
    let urgent (p : Progress) : State := { last p with refresh.balance := 6 }
    let waiting : State := { ready with
      sched.job := some .procedure, ctrl.progress := .due .setMode, ctrl.arrayState := .setting }
    let restoring : State := { ready with
      sched.job := some .procedure, ctrl.progress := .restoreShut true
      ctrl.arrayState := .setting, table.modeSettle := some 106 }
    (s.bank 2).closeTimeEnd = some 106 ∧ (∀ c : Fin 8, c ≠ 2 → (s.bank c).state = .closed) ∧
    (more.bank 5).state ≠ .closed ∧
    (after more (.closeTimeExpiry 2)).ctrl.progress = .shutAll .align ∧
    (after (last (.shutAll .retain)) (.closeTimeExpiry 2)).ctrl.progress = .due .retain ∧
    (after (urgent (.shutAll .retain)) (.closeTimeExpiry 2)).ctrl.progress = .renewing .retain ∧
    (after (urgent (.shutAll .doze)) (.closeTimeExpiry 2)).ctrl.progress = .due .doze ∧
    (last (.shutAll .setMode)).ctrl.loadWords = [] ∧
    (after (last (.shutAll .setMode)) (.closeTimeExpiry 2)).flag .ready = true ∧
    (let u : State := { last (.shutAll .setMode) with
       table.modeHold := some 107, ctrl.arrayState := .setting }
     max u.now 106 < 107 ∧ (after u (.closeTimeExpiry 2)).ctrl.progress = .due .setMode ∧
      (after u (.closeTimeExpiry 2)).ctrl.arrayState = .setting ∧
      (after { u with table.modeHold := some 106 } (.closeTimeExpiry 2)).flag .ready = true) ∧
    (after (last (.restoreShut false)) (.closeTimeExpiry 2)).ctrl.progress = .idle ∧
    (after (last (.restoreShut true)) (.closeTimeExpiry 2)).ctrl.progress = .idle ∧
    (let u : State := { last (.restoreShut true) with table.modeSettle := some 112 }
     (after u (.closeTimeExpiry 2)).ctrl.progress = .restoreShut true) ∧
    (waiting.ctrl.loadWords = [] ∧ waiting.allClosed = true ∧
      (after { waiting with table.modeHold := some 106 } .modeHoldExpiry).flag .ready = true ∧
      (after { waiting with table.modeSettle := some 106 } .modeSettleExpiry).flag .ready = true ∧
      (after { waiting with table.renewWindow := some 106 } .renewCompletion).flag .ready = true ∧
      (after { waiting with table.renewWindow := some 106, table.modeHold := some 107 }
        .renewCompletion).ctrl.progress = .due .setMode) ∧
    (restoring.allClosed = true ∧ (after restoring .modeSettleExpiry).ctrl.arrayState = .ready ∧
      (after { restoring with table.modeHold := some 102 } .modeHoldExpiry).ctrl.progress =
        .restoreShut true ∧
      (after { restoring with table.modeHold := some 106 } .modeHoldExpiry).ctrl.arrayState =
        .ready ∧
      (after { restoring with table.renewWindow := some 102 } .renewCompletion).ctrl.progress =
        .restoreShut true ∧
      (after { restoring with table.renewWindow := some 106 } .renewCompletion).ctrl.arrayState =
        .ready) ∧
    (after { waiting with table.renewWindow := some 106, table.modeHold := some 106 }
      .renewCompletion).flag .ready = true := by decide +kernel

theorem witness_StartUpPhasesFollowOneAnother :
    let s := { ready with ctrl.arrayState := .starting, ctrl.progress := .settlePhase 200 }
    s.resetLow = false ∧ s.ctrl.progress = .settlePhase 200 ∧ s.ctrl.arrayState = .starting ∧
    { s with ctrl.progress := .resetHold 200 }.ctrl.progress = .resetHold 200 ∧
    { s with ctrl.progress := .wakePhase 200 }.ctrl.progress = .wakePhase 200 ∧
    (let u := { s with ctrl.progress := .lockPhase 200 }
     u.ctrl.progress = .lockPhase 200 ∧ u.ctrl.autoAlign = false ∧
      { u with ctrl.autoAlign := true }.ctrl.autoAlign = true) := by decide +kernel

theorem witness_SettleExpiryEndsTheProcedure :
    let s := { ready with
      table.modeSettle := some 112, ctrl.progress := .loading, ctrl.arrayState := .starting }
    s.resetLow = false ∧ s.table.modeSettle = some 112 ∧ s.ctrl.progress = .loading ∧
    s.ctrl.loadWords = [] ∧ s.ctrl.arrayState = .starting ∧
    { s with ctrl.arrayState := .setting }.ctrl.arrayState = .setting ∧
    { s with ctrl.loadWords := [0] }.ctrl.loadWords ≠ [] ∧
    { s with ctrl.progress := .probing }.ctrl.progress = .probing ∧
    (let u := { s with ctrl.progress := .endSettle, ctrl.arrayState := .aligning }
     u.ctrl.progress = .endSettle ∧ u.ctrl.arrayState = .aligning) ∧
    { s with ctrl.progress := .endSettle }.ctrl.arrayState = .starting ∧
    { s with ctrl.progress := .exitSettle }.ctrl.progress = .exitSettle ∧
    (let u := { aligning with table.modeSettle := some 112, ctrl.progress := .suspendSettle }
     (after u .modeSettleExpiry).ctrl.progress = .suspendSet ∧
      (after { u with refresh.balance := 1 } .modeSettleExpiry).ctrl.progress = .suspendRenew) ∧
    (let u := { aligning with table.modeSettle := some 112, ctrl.progress := .suspendResume }
     u.ctrl.progress = .suspendResume ∧ u.ctrl.arrayState = .aligning ∧ u.ctrl.probe = none ∧
      (after u .modeSettleExpiry).ctrl.interruptions = 1 ∧
      (after u .modeSettleExpiry).ctrl.progress = .probing ∧
      (after { u with refresh.balance := 6 } .modeSettleExpiry).ctrl.progress =
        .suspendClear) := by decide +kernel

theorem witness_RetainWindowsExpire :
    (let s := { retaining with ctrl.retainMin := some 108 }
     s.ctrl.retainMin = some 108 ∧ s.ctrl.exitHeld = false ∧
      { s with ctrl.exitHeld := true }.ctrl.exitHeld = true ∧
      (after { s with ctrl.exitHeld := true } .retainMinExpiry).port = some ⟨.retainOut, 108⟩ ∧
      (after { s with ctrl.exitHeld := true, port := some ⟨.retainIn, 108⟩ }
        .retainMinExpiry).now = 109) ∧
    { retaining with ctrl.progress := .exitTime 212 false }.ctrl.progress = .exitTime 212 false ∧
    (let s := { retaining with
      ctrl.progress := .exitTime 212 true, sched.job := some .procedure }
     s.ctrl.progress = .exitTime 212 true ∧ s.ctrl.arrayState = .retaining ∧
      s.ctrl.copies.get 0 = some 6 ∧ s.sched.job = some .procedure ∧ s.allClosed = true ∧
      s.table.modeHold = none ∧
      (after { s with table.modeHold := some 212 } .retainExitTimeExpiry).ctrl.progress =
        .exitSettle ∧
      { s with table.modeHold := some 213 }.table.modeHold = some 213 ∧ max s.now 212 < 213 ∧
      (after { s with table.modeHold := some 213 } .retainExitTimeExpiry).ctrl.progress =
        .exitLoad) := by decide +kernel

theorem witness_StrobeProbesTestTheTaps :
    (aligning.resetLow = false ∧ aligning.sched.job = some .procedure ∧
      aligning.ctrl.progress = .probing ∧ aligning.ctrl.copies.get 1 = some 0x0080 ∧
      (0x0080 : Word).getLsbD 7 = true ∧ aligning.ctrl.probe = none ∧
      aligning.table.modeSettle = none ∧ aligning.ctrl.readHold = none ∧
      aligning.refresh.balance < aligning.refresh.urgentLevel ∧
      aligning.sched.lastReadEnd ≤ aligning.now ∧ aligning.sched.lastWriteEnd ≤ aligning.now ∧
      aligning.ctrl.arrayState ≠ .ready) ∧
    { aligning with ctrl.progress := .probeDue, refresh.balance := 6 }.ctrl.progress =
      .probeDue ∧
    (let s := { aligning with ctrl.probe := some ⟨100, 5, #v[5, 3]⟩ }
     (after s (.strobeProbeCompletion false false)).ctrl.searching = true ∧
      (after s (.strobeProbeCompletion false false)).ctrl.progress = .probeDue ∧
      (after { s with refresh.balance := 6 } (.strobeProbeCompletion false false)).ctrl.progress =
        .suspendClear) ∧
    { aligning with ctrl.probe := some ⟨116, 63, #v[63, 3]⟩ }.ctrl.probe =
      some ⟨116, 63, #v[63, 3]⟩ ∧
    (aligning.ctrl.lanes.get 1).searching = false ∧ (aligning.ctrl.lanes.get 0).searching = true ∧
    (aligning.ctrl.lanes.get 0).outcome = .none ∧
    (aligning.ctrl.lanes.get 0).trace.getLast? = some false ∧
    (after { aligning with ctrl.probe := some ⟨116, 63, #v[63, 3]⟩ }
      (.strobeProbeCompletion true true)).ctrl.searching = false := by decide +kernel

/-- R163: after a probe's completion the expiry that brings the balance to URGENT_LEVEL at the same AC
finds the next probe due, which is issued; the claim waits for its completion. -/
theorem test_the_due_probe_comes_before_the_claim :
    let s := { aligning with
      now := 116
      refresh.balance := 5
      refresh.timer := some 116
      ctrl.probe := some ⟨116, 5, #v[5, 3]⟩ }
    let t := after (after s (.strobeProbeCompletion false false)) .refreshPeriodExpiry
    t.refresh.balance = 6 ∧ t.ctrl.progress = .probeDue ∧ t.mayProbe = true ∧
      (after t .strobeProbe).ctrl.probe.isSome = true ∧
      (after (after t .strobeProbe) (.strobeProbeCompletion false false)).ctrl.progress =
        .suspendClear := by decide +kernel

/-- R154: an ALIGN that issued no RENEW itself loads M1 while another RENEW's window runs; one that did
waits for its last. -/
theorem test_align_waits_for_its_own_renew :
    let s := { aligning with
      ctrl.progress := .due .align
      ctrl.copies := #v[some 6, some 0, some 5, some 0]
      table.renewWindow := some 204 }
    (after s .modeLoad).ctrl.progress = .probing ∧
      (after { s with ctrl.progress := .renewed } .modeLoad).ctrl.progress = .renewed ∧
      (after { s with ctrl.progress := .renewed, table.renewWindow := none }
        .modeLoad).ctrl.progress = .probing := by decide +kernel

theorem witness_BlocksCoverTheRequest :
    Geometry.reset.allowed ∧ (12 : Nat) < (request .write).length ∧
    (request .write).address % 4 = 0 ∧ (request .write).length % 4 = 0 ∧ 12 % 4 = 0 :=
  ⟨⟨by decide, by decide⟩, by decide, by decide, by decide, by decide⟩

/-- R4: a segment of 12 words from a multiple of 8 takes a burst of 8 and a chopped one, the second
ends it, and where a row ends so does the segment. -/
theorem test_blocks_end_their_segment :
    let r : Request := { request .write with length := 12 }
    let q : Request := { request .read with address := 1020, length := 9 }
    let blocks (r : Request) (l : List Nat) := l.map fun p =>
      (r.blockAt Geometry.reset p).map fun x => (x.column, x.length, x.count, x.endsSegment)
    blocks r [0, 8] = [some (0, 8, 8, false), some (8, 4, 4, true)] ∧
    blocks q [0, 4] = [some (1020, 4, 4, true), some (0, 8, 5, true)] := by decide +kernel

theorem witness_ReadBurstIsIssuedForTheActiveRecord :
    let s := bursting .compare 8
    s.resetLow = false ∧ s.sched.job = some .recordBurst ∧
    s.pool.active = some (running .compare 8) ∧ (running .compare 8).aborting = false ∧
    (running .compare 8).req.kind = .compare ∧ (running .read 8).req.kind = .read ∧
    ((running .compare 8).req.blockAt s.setup.workGeometry 8).map
      (fun x => (s.bank x.bank).readyFor x.row) = some true ∧
    s.table.modeSettle = none ∧ s.ctrl.inAlignMode = false ∧ s.ctrl.readHold = none ∧
    s.ctrl.copies.get 0 = some 6 := by decide +kernel

theorem witness_WriteBurstIsIssuedForTheActiveRecord :
    let s := bursting .write 0
    s.resetLow = false ∧ s.sched.job = some .recordBurst ∧
    s.pool.active = some (running .write 0) ∧ (running .write 0).aborting = false ∧
    ((running .write 0).req.kind = .write ∧ (running .write 0).req.slot = some 4) ∧
    ((running .fill 0).req.kind = .fill ∧ (running .fill 0).req.pattern = some 0xA5A5) ∧
    ((running .write 0).req.blockAt s.setup.workGeometry 0).map
      (fun x => (s.bank x.bank).readyFor x.row) = some true ∧
    s.table.modeSettle = none ∧ s.ctrl.inAlignMode = false ∧
    s.ctrl.copies.get 2 = some 5 := by decide +kernel

theorem witness_ChunkWritesFourBurstsAndAdvances :
    let s := { capturing ready 32 with
      capture.state := .draining
      capture.producer := 32
      sched.job := some (.chunk 3)
      table.banks := ready.table.banks.set 0 (openAt 384) }
    s.resetLow = false ∧ s.sched.job = some (.chunk 3) ∧
    { s with sched.job := some (.chunk 0) }.sched.job = some (.chunk 0) ∧
    bankOf s.setup.workGeometry (s.capture.base.toNat + s.capture.producer) = 0 ∧
    (s.bank 0).state = .opened ∧
    (s.bank 0).openRow =
      some (rowOf s.setup.workGeometry (s.capture.base.toNat + s.capture.producer)) ∧
    (s.bank 0).mark = false ∧ s.table.modeSettle = none ∧ s.ctrl.inAlignMode = false ∧
    s.ctrl.copies.get 2 = some 5 ∧
    ((s.capture.producer + 32) % (s.capture.size.toNat * 32) = s.capture.mark.toNat ∧
      s.capture.fifo.length ≤ 32) := by decide +kernel

/-- A state with one burst in flight for the ACTIVE record. -/
def completing (kind : Kind) (position : Nat) : State :=
  { bursting kind position with
    sched.job := none
    sched.inFlight := [burst (!kind.reads) .record] }

/-- R41, R46: while a SOFT_RESET is pending the last completion of a record finishes nothing, also with
a RENEW still in flight: it is counted, the record stays ACTIVE with its slots LENT, COMPLETION is not
set, and the taking effect frees it. -/
theorem witness_CompletionsUnderSoftReset :
    let s (kind : Kind) : State := { completing kind 16 with
      bus.softPending := true
      staging := (completing kind 16).staging.setOwner (request kind) (some 7)
      table.renewWindow := some 140 }
    let t (kind : Kind) : State := after (s kind)
      (if kind.reads then .readBurstCompletion else .writeBurstCompletion)
    let u (kind : Kind) : State := after (after (t kind) .renewCompletion) .softResetTakesEffect
    ∀ kind ∈ [Kind.read, .compare, .write],
      (s kind).bus.softPending = true ∧
      (t kind).pool.active.map (fun a => a.wordsDone) = some 8 ∧ (t kind).pool.done = [] ∧
      (t kind).staging.owner.get 4 = some 7 ∧ (t kind).flag .completion = false ∧
      (u kind).pool = ⟨[], none, [], 0⟩ ∧ (u kind).staging.owner.get 4 = none ∧
      (u kind).flag .completion = false := by decide +kernel

theorem witness_ReadCompletionStoresTheRequestedWords :
    let s := completing .read 16
    s.resetLow = false ∧ s.sched.inFlight = [burst false .record] ∧
    (burst false .record).isWrite = false ∧ s.pool.active = some (running .read 16) ∧
    (running .read 16).req.kind = .read ∧ (running .read 16).req.slot = some 4 ∧
    (running .read 16).aborting = false ∧ s.bus.softPending = false ∧
    (running .read 16).req.length ≤ (running .read 16).position ∧
    ¬ (running .read 8).req.length ≤ (running .read 8).position ∧
    (let u := { s with pool.active := some { running .read 8 with aborting := true } }
     (after u .readBurstCompletion).pool.done =
      [⟨7, .read, 3, .aborted, 8, some false, none⟩]) := by decide +kernel

theorem witness_CompareCompletionCountsTheDifferences :
    let s := completing .compare 16
    s.resetLow = false ∧ s.sched.inFlight = [burst false .record] ∧
    (burst false .record).isWrite = false ∧ s.pool.active = some (running .compare 16) ∧
    (running .compare 16).req.kind = .compare ∧ (running .compare 16).req.slot = some 4 ∧
    (running .compare 16).aborting = false ∧ s.bus.softPending = false ∧
    (running .compare 16).req.length ≤ (running .compare 16).position ∧
    (let u := { s with pool.active := some { running .compare 8 with aborting := true } }
     (after u .readBurstCompletion).pool.done =
      [⟨7, .compare, 3, .aborted, 8, some false, none⟩]) := by decide +kernel

theorem witness_WriteCompletionPutsTheWordsInTheArray :
    let s := completing .write 16
    s.resetLow = false ∧ s.sched.inFlight = [burst true .record] ∧
    (burst true .record).isWrite = true ∧ s.bus.softPending = false ∧
    (burst true (.chunk true)).user = .chunk true ∧ (burst true .record).user = .record ∧
    s.pool.active = some (running .write 16) ∧ (running .write 16).aborting = false ∧
    (running .write 16).req.kind = .write ∧
    (let u := { s with pool.active := some { running .write 8 with aborting := true } }
     (after u .writeBurstCompletion).pool.done =
      [⟨7, .write, 3, .aborted, 8, none, none⟩]) := by decide +kernel

/-- R72: a segment's last burst marks its row under CLOSED_PAGE, keeps it under OPEN_PAGE, and under
ADAPTIVE keeps it for a QUEUED record in it. A record being aborted decides nothing (R97). R73: under
ADAPTIVE a chunk's last burst keeps the row of the next chunk position of a run (log 31). -/
theorem witness_RowDecisions :
    let x : Burst := { burst true .record with endsSegment := true }
    let s (p : Policy) : State := { completing .write 16 with
      sched.inFlight := [x]
      table := { (completing .write 16).table with policy := p } }
    let mark (s : State) : Bool := ((after s .writeBurstCompletion).bank 2).mark
    let wanted : State := { s .adaptive with pool.queued := [waiting .read 9 0] }
    let aborted : State := { s .closedPage with
      pool.active := some { running .write 16 with aborting := true } }
    let chunk (p : Policy) : State := { s p with
      sched.inFlight := [{ x with user := .chunk true }], pool.active := none }
    let run (producer : Nat) : State := { capturing (chunk .adaptive) 0 with
      capture.base := 40 * 8192 + 2 * 1024, capture.producer := producer }
    mark (s .closedPage) = true ∧ mark (s .adaptive) = true ∧ mark (s .openPage) = false ∧
    mark wanted = false ∧ mark aborted = false ∧ mark (run 32) = false ∧
    mark { run 32 with capture.state := .idle } = true ∧ mark (run 1024) = true ∧
    mark (chunk .closedPage) = true ∧ mark (chunk .adaptive) = true ∧
    mark (chunk .openPage) = false ∧
    (s .closedPage).bank 2 = openAt 40 ∧ x.endsSegment = true ∧
    (running .write 16).req.closeOption = .policy := by decide +kernel

/-! ### Claims -/

/-- ROW_SHUT may be issued where the model's function for it says so. -/
theorem mayShut_iff (s : State) (b : Fin 8) : MayShut s b ↔ s.canShut b = true := by
  have he : ∀ w : Option Nat, expired w s.now = true ↔ ∀ p, w = some p → p ≤ s.now := by
    intro w
    cases w <;> simp [expired]
  have hw : ∀ w : WriteRecovery, w.expiredAt s.now = true ↔
      w ≠ .pending ∧ ∀ p, w = .ends p → p ≤ s.now := by
    intro w
    cases w <;> simp [WriteRecovery.expiredAt]
  simp only [MayShut, State.canShut, Bank.shutAllowed, State.settled, Bool.and_eq_true,
    decide_eq_true_eq, he, hw]
  tauto

/-- A shut claim stands where the model's function for it says so. -/
theorem shutClaimed_iff (s : State) (b : Fin 8) :
    ShutClaimed s b ↔ ((s.bank b).mark && s.canShut b) = true := by
  rw [ShutClaimed, mayShut_iff, Bool.and_eq_true]

/-- Where no bank is marked no shut claim stands. -/
theorem no_shut_claim (s : State) (h : (bankNumbers.all fun b => !(s.bank b).mark) = true) :
    ∀ b, ¬ ShutClaimed s b := by
  intro b hb
  have all : ∀ c : Fin 8, c ∈ bankNumbers := by decide
  have := List.all_eq_true.1 h b (all b)
  rw [hb.1] at this
  exact absurd this (by decide)

/-- A READY array with the balance at the floor and nothing claimed. -/
def quiet : State := { ready with refresh.balance := -2 }

theorem quiet_is_free : PathFree quiet := by
  refine ⟨rfl, rfl, rfl, rfl, by decide, by decide +kernel, ?_⟩
  decide +kernel

theorem witness_ArbiterGrantsTheFirstClaimOfTheOrder :
    quiet.arbiterOpen = true ∧ { quiet with sched.job := some .pullIn }.arbiterOpen = false ∧
    quiet.grantsDue = [] ∧ ready.grantsDue = [.opportunisticRefreshGrant] ∧
    { quiet with pool.queued := [waiting .read 1 0] }.grantsDue = [.selection] ∧
    { quiet with pool.active := some (running .read 0) }.grantsDue = [.recordBurstGrant] ∧
    (capturing quiet 127).grantsDue = [.captureChunkGrant] ∧
    { quiet with ctrl.progress := .draining .doze }.grantsDue = [.drainGrant] ∧
    { quiet with refresh.balance := 6 }.grantsDue = [.urgentRefreshGrant] := by decide +kernel

theorem witness_GrantsGiveThePathToTheirJob_free :
    (quiet.resetLow = false ∧ quiet.sched.job = none ∧ quiet.bus.softPending = false ∧
      quiet.ctrl.restoreDue = false ∧
      quiet.ctrl.arrayState ∈ [ArrayState.ready, .setting, .aligning]) ∧
    (let s : State := { quiet with refresh.balance := 6 }
     (s.refresh.urgentLevel : Int) ≤ s.refresh.balance) ∧
    quiet.refresh.balance < quiet.refresh.urgentLevel ∧
    ((capturing quiet 128).capture.demand = true ∧ 128 ≤ (capturing quiet 128).capture.fifo.length) ∧
    (let s := { quiet with ctrl.restoreDue := true, ctrl.arrayState := .aligning }
     s.resetLow = false ∧ s.ctrl.restoreDue = true ∧ s.bus.softPending = false ∧
      s.sched.job = none ∧ s.ctrl.inAlignMode = false ∧ s.allClosed = true ∧
      s.table.modeSettle = none ∧
      { s with table.banks := quiet.table.banks.set 2 (openAt 40) }.allClosed = false ∧
      { s with ctrl.copies := aligning.ctrl.copies }.ctrl.inAlignMode = true ∧
      (let u := { s with table.modeSettle := some 112 }
       u.ctrl.arrayState = .aligning ∧ (after u .restoreGrant).ctrl.arrayState = .ready) ∧
      (let u (p : Progress) : State := { s with
         ctrl.arrayState := .setting, ctrl.progress := p, table.modeSettle := some 112 }
       (u (.stopped true)).now < 112 ∧ (u (.stopped true)).allClosed = true ∧
        (after (u (.stopped true)) .restoreGrant).ctrl.progress = .restoreShut true ∧
        (after (u (.stopped false)) .restoreGrant).ctrl.arrayState = .ready ∧
        (after (u .idle) .restoreGrant).ctrl.arrayState = .ready)) := by
  decide +kernel

/-- R162: an alignment's end is stopped with its settle running, the array is READY again, a SET_MODE
shuts the banks and is stopped before its first load: its restore waits for no settle. -/
theorem test_restore_waits_for_no_other_settle :
    let ending : State := { aligning with
      ctrl.progress := .endSettle, ctrl.copies := ready.ctrl.copies
      table.modeSettle := some 112 }
    let again : State := after (after ending .softReset) .restoreGrant
    let asked : State := { after again .setMode with
      table.banks := ready.table.banks.set 2 (openAt 40) }
    let stopped : State := after (after asked .drainGrant) .softReset
    let closed : State := { stopped with table.banks := ready.table.banks }
    let restored : State := after closed .restoreGrant
    again.ctrl.arrayState = .ready ∧ asked.ctrl.arrayState = .setting ∧
      (after asked .drainGrant).ctrl.progress = .shutAll .setMode ∧
      stopped.ctrl.progress = .stopped false ∧ closed.table.modeSettle = some 112 ∧
      restored.ctrl.arrayState = .ready ∧ restored.now = 100 := by decide +kernel

/-- A second SOFT_RESET stops the restore of an ALIGN after its own load of M1: the next restore does not
wait for that load's window (log 37). In SETTING it waits again for the SET_MODE's. -/
theorem test_second_soft_reset_stops_a_restore :
    let s (a : ArrayState) : State := { ready with
      ctrl.arrayState := a, ctrl.progress := .restoreShut true, sched.job := some .procedure
      table.modeSettle := some 112 }
    let stopped (a : ArrayState) : State := after (s a) .softReset
    (stopped .aligning).ctrl.progress = .stopped true ∧
      (after (stopped .aligning) .restoreGrant).ctrl.arrayState = .ready ∧
      (after (stopped .setting) .restoreGrant).ctrl.progress = .restoreShut true := by decide +kernel

/-- Which bit of ARRAY_VIEW shows which unknown array copy, and which of SLOT_OWN which slot (log 36). -/
theorem test_bits_of_the_views :
    { ready with ctrl.copies := #v[none, some 0, some 5, some 0] }.readRegister 0x1D =
      some 0x0122 ∧
    { ready with staging.owner := ready.staging.owner.set 17 (some 7) }.readRegister 0x17 =
      some 0x0002 := by decide +kernel

theorem witness_GrantsGiveThePathToTheirJob_chunk :
    PathFree (capturing quiet 32) ∧ (capturing quiet 32).ctrl.arrayState = .ready ∧
    (capturing quiet 32).drainClaim = false ∧ (capturing quiet 32).capture.demand = true ∧
    (∀ b, ¬ ShutClaimed (capturing quiet 32) b) ∧ (capturing quiet 32).burstClaim = false :=
  ⟨⟨rfl, rfl, rfl, rfl, by decide, by decide +kernel, by decide +kernel⟩, rfl, rfl,
    by decide +kernel, no_shut_claim _ (by decide +kernel), rfl⟩

theorem witness_GrantsGiveThePathToTheirJob_drain :
    let s := { quiet with
      ctrl.progress := .draining .doze, table.banks := quiet.table.banks.set 2 (openAt 40) }
    PathFree s ∧ s.ctrl.progress = .draining .doze ∧ s.pool.active = none ∧ s.allClosed = false :=
  ⟨⟨rfl, rfl, rfl, rfl, by decide, by decide +kernel, by decide +kernel⟩, rfl, rfl,
    by decide +kernel⟩

/-- A drain granted with every bank CLOSED for a SET_MODE with nothing to load: the windows over, and one
running. -/
theorem witness_GrantsGiveThePathToTheirJob_nothingToLoad :
    let s : State := { quiet with
      ctrl.progress := .draining .setMode, ctrl.arrayState := .setting
      ctrl.indication := .setting }
    let u : State := { s with table.modeHold := some 104 }
    PathFree s ∧ PathFree u ∧ s.pool.active = none ∧ s.allClosed = true ∧ u.allClosed = true ∧
    s.ctrl.loadWords = [] ∧
    (s.table.renewWindow = none ∧ s.table.modeSettle = none ∧ s.table.modeHold = none) ∧
    u.now < 104 ∧ (after s .drainGrant).ctrl.arrayState = .ready ∧
    (after s .drainGrant).flag .ready = true ∧
    (after u .drainGrant).ctrl.progress = .due .setMode :=
  ⟨⟨rfl, rfl, rfl, rfl, by decide, by decide +kernel, by decide +kernel⟩,
    ⟨rfl, rfl, rfl, rfl, by decide, by decide +kernel, by decide +kernel⟩, rfl, by decide +kernel,
    by decide +kernel, rfl, ⟨rfl, rfl, rfl⟩, by decide, by decide +kernel, by decide +kernel,
    by decide +kernel⟩

/-- A WRITE's burst is granted during a read hold, a READ's is not (R93, R151). -/
theorem test_write_bursts_pass_a_read_hold :
    let s (kind : Kind) : State := { quiet with
      pool.active := some { running kind 0 with paused := true }, ctrl.readHold := some 600 }
    (after (s .write) .recordBurstGrant).sched.job = some .recordBurst ∧
    (after (s .read) .recordBurstGrant).sched.job = none := by decide +kernel

/-- A drain granted with every bank CLOSED: an ALIGN's, and a SET_MODE's with a word to load. -/
theorem witness_GrantsGiveThePathToTheirJob_drainClosed :
    let s (d : Drain) : State := { quiet with ctrl.progress := .draining d, ctrl.loadWords := [1] }
    PathFree (s .align) ∧ PathFree (s .setMode) ∧ (s .align).allClosed = true ∧
    Drain.align ≠ .setMode ∧ (s .setMode).ctrl.loadWords ≠ [] ∧
    (after (s .setMode) .drainGrant).ctrl.progress = .due .setMode :=
  ⟨⟨rfl, rfl, rfl, rfl, by decide, by decide +kernel, by decide +kernel⟩,
    ⟨rfl, rfl, rfl, rfl, by decide, by decide +kernel, by decide +kernel⟩, by decide +kernel,
    by decide, by decide, by decide +kernel⟩

theorem witness_GrantsGiveThePathToTheirJob_shut :
    let s := { quiet with
      table.banks := quiet.table.banks.set 0 { openAt 40 with mark := true } }
    PathFree s ∧ ¬ (s.drainClaim = true ∧ s.pool.active = none) ∧ ShutClaimed s 0 ∧
      ∀ c, c < (0 : Fin 8) → ¬ ShutClaimed s c :=
  ⟨⟨rfl, rfl, rfl, rfl, by decide, by decide +kernel, by decide +kernel⟩, by decide +kernel,
    (shutClaimed_iff _ _).2 (by decide +kernel), fun c hc => absurd hc (by revert c; decide)⟩

theorem witness_GrantsGiveThePathToTheirJob_burst :
    let s := { quiet with pool.active := some { running .read 0 with paused := true } }
    PathFree s ∧ (∀ b, ¬ ShutClaimed s b) ∧
      s.pool.active = some { running .read 0 with paused := true } ∧
      (running .read 0).position < (running .read 0).req.length ∧
      (running .read 0).aborting = false ∧ s.ctrl.readHold = none :=
  ⟨⟨rfl, rfl, rfl, rfl, by decide, by decide +kernel, by decide +kernel⟩,
    no_shut_claim _ (by decide +kernel), rfl, by decide, rfl, rfl⟩

theorem witness_GrantsGiveThePathToTheirJob_pullIn :
    PathFree ready ∧ ready.ctrl.arrayState = .ready ∧ ready.drainClaim = false ∧
    ready.capture.demand = false ∧ (∀ b, ¬ ShutClaimed ready b) ∧ ready.pool.active = none ∧
    ready.pool.queued = [] ∧ ready.refresh.pullinFloor < ready.refresh.balance :=
  ⟨⟨rfl, rfl, rfl, rfl, by decide, by decide +kernel, by decide +kernel⟩, rfl, rfl,
    by decide +kernel, no_shut_claim _ (by decide +kernel), rfl, rfl, by decide +kernel⟩

/-- The first selection of the example in section 5.7, by its records A, B, C and D. -/
def fiveSeven : State :=
  let q (tag : Byte) (kind : Kind) (address length : Nat) (urgent : Bool) : Queued :=
    ⟨{ request kind with tag := tag, address := address, length := length, urgent := urgent }, 0, 0⟩
  { quiet with
    sched.ageLimit := 2
    table.banks := quiet.table.banks.set 1 (openAt 1310)
    pool.queued := [q 31 .write 0x0200000 64 false, q 32 .read 0x0200020 32 false,
      q 33 .read 0x0A3C5F2 16 false, q 34 .fill 0x0500000 64 true, q 35 .read 0x0500010 16 true] }

theorem witness_SelectionChoosesByAgeUrgencyAndRowHit :
    PathFree fiveSeven ∧ fiveSeven.ctrl.arrayState = .ready ∧ fiveSeven.drainClaim = false ∧
    fiveSeven.capture.demand = false ∧ (∀ b, ¬ ShutClaimed fiveSeven b) ∧
    fiveSeven.pool.active = none ∧ fiveSeven.pool.queued ≠ [] ∧ fiveSeven.pool.queued.Nodup :=
  ⟨⟨rfl, rfl, rfl, rfl, by decide, by decide +kernel, by decide +kernel⟩, rfl, rfl,
    by decide +kernel, no_shut_claim _ (by decide +kernel), rfl, by decide +kernel,
    by decide +kernel⟩

/-- Section 5.7: D is chosen, and A and C age. -/
theorem test_selection :
    let t := after fiveSeven .selection
    t.pool.active.map (fun a => a.req.tag) = some 34 ∧
      t.pool.queued.map (fun q => (q.req.tag, q.age)) = [(31, 1), (32, 0), (33, 1), (35, 0)] := by
  decide +kernel

theorem witness_RowsAreOpenedAndShutForTheJob :
    let blockOf (s : State) : Option (Fin 8 × Nat) :=
      ((running .write 0).req.blockAt s.setup.workGeometry 0).map fun x => (x.bank, x.row)
    (let s := { bursting .write 0 with table := Table.reset }
     s.resetLow = false ∧ s.sched.job = some .recordBurst ∧
      s.pool.active = some (running .write 0) ∧ (running .write 0).position = 0 ∧
      blockOf s = some (2, 40) ∧ (s.bank 2).state = .closed ∧ s.table.openSpacing = none ∧
      s.table.renewWindow = none ∧ s.table.modeSettle = none ∧
      (after s .rowOpen).port = some ⟨.rowOpen 2 40, 100⟩) ∧
    (let s := { capturing ready 32 with sched.job := some (.chunk 0) }
     s.sched.job = some (.chunk 0) ∧
      bankOf s.setup.workGeometry (s.capture.base.toNat + s.capture.producer) = 0 ∧
      (s.bank 0).state = .closed ∧
      (after s .rowOpen).port = some ⟨.rowOpen 0
        (rowOf s.setup.workGeometry (s.capture.base.toNat + s.capture.producer)), 100⟩) ∧
    (let s := { bursting .write 0 with table.banks := ready.table.banks.set 2 (openAt 41) }
     blockOf s = some (2, 40) ∧ s.bank 2 = openAt 41 ∧ (openAt 41).openRow ≠ some 40 ∧
      s.canShut 2 = true ∧ (after s .rowShut).port = some ⟨.rowShut 2, 100⟩ ∧
      (let u := { s with sched.job := some (.shutClaim 2) }
       u.sched.job = some (.shutClaim 2) ∧ u.canShut 2 = true ∧
        (after u .rowShut).sched.job = none) ∧
      (let u := { s with sched.job := some .urgentRefresh }
       u.sched.job = some .urgentRefresh ∧ u.canShut 2 = true ∧
        ∀ c : Fin 8, c < 2 → u.canShut c = false) ∧
      (let u := { s with sched.job := some .procedure, ctrl.progress := .shutAll .retain }
       (after u .rowShut).port = some ⟨.rowShut 2, 100⟩ ∧
        (after { u with ctrl.progress := .restoreShut false } .rowShut).port =
          some ⟨.rowShut 2, 100⟩)) := by
  decide +kernel

theorem witness_RenewLowersTheBalance :
    (let s := { ready with sched.job := some .urgentRefresh, refresh.balance := -7 }
     s.resetLow = false ∧ s.sched.job = some .urgentRefresh ∧ s.allClosed = true ∧
      s.table.renewWindow = none ∧ s.table.modeSettle = none ∧ -8 < s.refresh.balance ∧
      s.ctrl.arrayState ∉ [ArrayState.dozing, .retaining]) ∧
    (let s (p : Progress) (balance : Int) : State := { aligning with
      ctrl.progress := p, refresh.balance := balance }
     let next (p : Progress) (balance : Int) := (after (s p balance) .renew).ctrl.progress
     (s .suspendRenew 2).allClosed = true ∧ (s .suspendRenew 2).table.renewWindow = none ∧
      (s .suspendRenew 2).table.modeSettle = none ∧
      (s .suspendRenew 2).ctrl.arrayState ∉ [ArrayState.dozing, .retaining] ∧
      next .suspendRenew 2 = .suspendRenew ∧ next .suspendRenew 1 = .suspendSet ∧
      next (.renewing .align) 1 = .renewed ∧ next (.renewing .setMode) 1 = .due .setMode ∧
      next (.renewing .retain) 1 = .due .retain) ∧
    (let s := { ready with sched.job := some .urgentRefresh, refresh.balance := 8 }
     s.refresh.balance ≤ 8 ∧ s.mayRenew = true ∧ s.refresh.timer.isSome = true ∧
      (after (after s .renew) .refreshPeriodExpiry).refresh.balance = 8 ∧
      (after s .refreshPeriodExpiry).mayRenew = true ∧
      (after (after s .refreshPeriodExpiry) .renew).refresh.balance = 7) := by decide +kernel

theorem witness_ModeLoadSetsTheArrayCopy :
    let s := { ready with
      ctrl.arrayState := .setting, ctrl.progress := .loading, ctrl.loadWords := [0]
      ctrl.loadImage := #v[0x0106, 0, 5, 0], sched.job := some .procedure }
    s.resetLow = false ∧ s.sched.job = some .procedure ∧ s.ctrl.progress = .loading ∧
    s.ctrl.loadWords = 0 :: [] ∧ s.allClosed = true ∧ s.table.modeHold = none ∧
    s.ctrl.arrayState = .setting ∧
    { s with ctrl.arrayState := .starting }.ctrl.arrayState = .starting ∧
    (after s .modeLoad).ctrl.copies.get 0 = some 6 ∧
    (after s .modeLoad).ctrl.readHold = some 612 ∧
    (let u := { s with ctrl.progress := .due .setMode }
     u.table.renewWindow = none ∧ u.table.modeSettle = none ∧
      (after u .modeLoad).ctrl.copies.get 0 = some 6) := by decide +kernel

theorem witness_ModeLoadSetsTheArrayCopy_one :
    let s (p : Progress) : State := { aligning with ctrl.progress := p }
    let next (p : Progress) : Progress := (after (s p) .modeLoad).ctrl.progress
    (s .renewed).sched.job = some .procedure ∧ (s .renewed).allClosed = true ∧
    (s .renewed).table.modeHold = none ∧ (s .renewed).ctrl.copies.get 1 = some 0x0080 ∧
    (s .renewed).ctrl.arrayState ≠ .ready ∧ (s .renewed).table.renewWindow = none ∧
    next (.due .align) = .probing ∧ next .renewed = .probing ∧
    (after { s .renewed with refresh.balance := 6 } .modeLoad).ctrl.progress = .suspendClear ∧
    next .suspendSet = .suspendResume ∧ next .suspendClear = .suspendSettle ∧
    next .endClear = .endSettle ∧ next .restoreLoad = .restoreShut true ∧
    (let u := { retaining with
      ctrl.copies := #v[some 6, some 0, some 5, some 0]
      ctrl.progress := .exitLoad, sched.job := some .procedure }
     u.ctrl.copies.get 0 = some 6 ∧ u.allClosed = true ∧ u.table.modeHold = none ∧
      (after u .modeLoad).ctrl.progress = .exitSettle) := by decide +kernel

theorem witness_NapInDozesAndRetainInRetains :
    let s := { ready with ctrl.progress := .due .doze, sched.job := some .procedure }
    s.resetLow = false ∧ s.sched.job = some .procedure ∧ s.allClosed = true ∧
    s.table.renewWindow = none ∧ s.table.modeSettle = none ∧ s.ctrl.progress = .due .doze ∧
    { s with ctrl.progress := .due .retain }.ctrl.progress = .due .retain := by decide +kernel

/-! ### States in which the invariants hold and a step is taken -/

theorem ready_faultReportAgrees : ready.faultReportAgrees :=
  ⟨by decide +kernel, fun r h => nomatch (show (none : Option FaultRecord) = some r from h)⟩

theorem ready_refreshInRange : ready.refreshInRange := by
  unfold State.refreshInRange; decide +kernel

theorem ready_settingsInRange : ready.settingsInRange := by
  refine ⟨by decide +kernel, by decide +kernel, ⟨by decide, by decide⟩, ⟨by decide, by decide⟩, ?_, ?_,
    by decide +kernel⟩
  · exact Or.inr (Or.inl rfl)
  · intro d h
    have : (2 : Nat) = d := Option.some.inj h
    exact Or.inr (Or.inl this.symm)

/-- A step of the machine that changes the state, from one with the three invariants. -/
theorem witness_RegistersStayInRangeAtEveryStep :
    ready.faultReportAgrees ∧ ready.refreshInRange ∧ ready.settingsInRange ∧
    step { ready with pending := [.release 0] } =
      .next (after ready (.release 0)) ∧
    (after ready (.release 0)).events.record = some ⟨.emptyRelease, 0, 0⟩ :=
  ⟨ready_faultReportAgrees, ready_refreshInRange, ready_settingsInRange, rfl, by decide +kernel⟩

theorem witness_MemoriesStayCanonicalAtEveryStep :
    ready.memoriesCanonical ∧
    step { ready with pending := [.dataPortWrite 5] } = .next (after ready (.dataPortWrite 5)) ∧
    (after ready (.dataPortWrite 5)).staging.words = [(0, 5)] :=
  ⟨⟨by decide +kernel, by decide +kernel⟩, rfl, by decide +kernel⟩

/-- A capture run with a chunk on the path is within bounds. -/
theorem witness_CaptureStaysInBoundsAtEveryStep :
    { capturing ready 32 with sched.job := some (.chunk 3) }.captureInBounds := by
  refine ⟨by decide +kernel, by decide +kernel, by decide +kernel, by decide +kernel, ?_, ?_,
    by decide +kernel, by decide +kernel, by decide +kernel, ?_⟩
  · exact ⟨by decide +kernel, by decide +kernel⟩
  · exact ⟨by decide +kernel, by decide +kernel⟩
  · intro j h
    have : (3 : Nat) = j := Job.chunk.inj (Option.some.inj h)
    subst this
    decide +kernel

/-- An accepted post's state has its record in the pool and its slot lent. -/
theorem witness_PoolAndSlotsAgreeAtEveryStep :
    { ready with
      pool.active := some (running .read 0)
      staging.owner := ready.staging.owner.set 4 (some 7) }.poolAndSlotsAgree := by
  have owner : ∀ i : Fin 32, (ready.staging.owner.set 4 (some 7))[i] =
      if i = 4 then some 7 else none := by decide +kernel
  refine ⟨by decide +kernel, by decide +kernel,
    fun q h => (nomatch (show q ∈ ([] : List Queued) from h)), ?_⟩
  intro i h tag
  show (ready.staging.owner.set 4 (some 7))[(⟨i, h⟩ : Fin 32)] = some tag ↔
    ∃ r, r ∈ [request .read] ∧ r.tag = tag ∧ r.covers i
  have span : (request .read).covers i ↔ i = 4 := by
    unfold Request.covers
    have hs : (request .read).slot = some 4 := rfl
    have hn : spanSlots (request .read).length = 1 := rfl
    rw [hs, hn]
    constructor
    · rintro ⟨slot, e, h1, h2⟩
      have : 4 = slot := Option.some.inj e
      omega
    · rintro rfl
      exact ⟨4, rfl, by omega, by omega⟩
  have tag7 : (request .read).tag = 7 := rfl
  rw [owner]
  simp only [List.mem_singleton, exists_eq_left, span, tag7]
  by_cases h4 : i = 4
  · subst h4
    simp
  · have : (⟨i, h⟩ : Fin 32) ≠ 4 := fun e => h4 (Fin.val_eq_of_eq e)
    simp [this, h4]

/-- A state with a bank open has its banks formed. -/
theorem witness_BanksStayFormedAtEveryStep : (bursting .read 0).banksAgree := by
  refine ⟨?_, fun h => absurd h (by decide +kernel)⟩
  unfold Bank.formed
  decide +kernel

theorem witness_ControllerPartsAgreeAtEveryStep : aligning.controllerAgrees := by
  unfold State.controllerAgrees Indication.agreesWith
  refine ⟨Or.inr rfl, ?_⟩
  decide +kernel

end Sys2Proof.Tests
end

/-! Posts and releases (R23, R24, R36, R37): what each check of a post says about the fields of
the submission registers, what a post and a release do, and the statements on them. -/

namespace Sys2Proof.Machine

/-! ### The pool's counts and tags -/

theorem Pool.live_eq (p : Pool) :
    p.live = p.queued.length + p.active.toList.length + p.done.length := by
  unfold Pool.live
  cases p.active <;> rfl

/-- Check 1 of R23: the pool has 16 records (R27). -/
theorem Pool.free_eq_zero_iff (p : Pool) :
    p.free = 0 ↔ 16 ≤ p.queued.length + p.active.toList.length + p.done.length := by
  rw [Pool.free, p.live_eq]
  omega

/-- Check 4 of R23, read over the list of live tags (R30). -/
theorem Pool.tagLive_iff (p : Pool) (tag : Byte) : p.tagLive tag = true ↔ tag ∈ p.tags := by
  unfold Pool.tagLive Pool.tags
  cases p.active <;> simp [or_assoc, eq_comm (a := tag)]

/-- Without the head of its completion queue a pool has one record less. -/
theorem Pool.live_pop {p : Pool} {d : Completion} {rest : List Completion} (h : p.done = d :: rest) :
    { p with done := rest }.live + 1 = p.live := by
  simp only [Pool.live, h, List.length_cons]
  omega

/-- Tags are distinct (R30), so the head's tag is on no other record. -/
theorem Pool.tag_notMem_tags_pop {p : Pool} {d : Completion} {rest : List Completion}
    (h : p.done = d :: rest) (hn : p.tags.Nodup) : d.tag ∉ { p with done := rest }.tags := by
  unfold Pool.tags at hn
  rw [h, List.map_cons, List.nodup_middle] at hn
  exact (List.nodup_cons.1 hn).1

/-! ### The fields of a submission -/

theorem kindOfCode_eq_none_iff (code : Nat) : kindOfCode code = none ↔ 4 ≤ code := by
  match code with
  | 0 | 1 | 2 | 3 => decide
  | n + 4 => simp [kindOfCode]

theorem code_of_kindOfCode {code : Nat} {k : Kind} (h : kindOfCode code = some k) :
    k.code = code := by
  unfold kindOfCode at h
  split at h <;> cases h <;> rfl

theorem closeOfCode_eq_none_iff (code : Nat) : closeOfCode code = none ↔ 3 ≤ code := by
  match code with
  | 0 | 1 | 2 => decide
  | n + 3 => simp [closeOfCode]

theorem Kind.reads_iff (k : Kind) : k.reads = true ↔ k.code = 0 ∨ k.code = 3 := by
  cases k <;> decide

theorem Kind.eq_fill_iff (k : Kind) : k = .fill ↔ k.code = 2 := by
  cases k <;> decide

/-- A field of SUB_CTRL as a quotient and a remainder (R189). -/
theorem toNat_field (c : BitVec 15) (start len : Nat) :
    (c.extractLsb' start len).toNat = c.toNat / 2 ^ start % 2 ^ len := by
  rw [BitVec.extractLsb'_toNat, Nat.shiftRight_eq_div_pow]

/-- Check 3 of R23: the kind code or the close code names nothing (R189). -/
theorem Bus.submission_eq_none_iff (u : Bus) :
    u.submission = none ↔ 4 ≤ u.subCtrl.toNat / 256 % 8 ∨ u.subCtrl.toNat / 2048 % 4 = 3 := by
  have hkind := kindOfCode_eq_none_iff (u.subCtrl.toNat / 2 ^ 8 % 2 ^ 3)
  have hclose := closeOfCode_eq_none_iff (u.subCtrl.toNat / 2 ^ 11 % 2 ^ 2)
  unfold Bus.submission
  rw [toNat_field, toNat_field]
  split
  next _ _ hk hc =>
    simp only [hk, hc, reduceCtorEq, false_iff] at hkind hclose ⊢
    omega
  next hnone =>
    simp only [true_iff]
    rcases hk : kindOfCode (u.subCtrl.toNat / 2 ^ 8 % 2 ^ 3) with _ | k
    · exact Or.inl (hkind.1 hk)
    · rcases hc : closeOfCode (u.subCtrl.toNat / 2 ^ 11 % 2 ^ 2) with _ | c
      · have := hclose.1 hc
        omega
      · exact absurd hc (hnone k c hk)

/-- What a submitted request has from the submission registers, as far as R23 checks it. -/
theorem Bus.submission_fields {u : Bus} {r : Request} (h : u.submission = some r) :
    r.tag = u.subCtrl.setWidth 8 ∧ r.kind.code = u.subCtrl.toNat / 256 % 8 ∧
      r.address = u.subAddrHi.toNat * 65536 + u.subAddrLo.toNat ∧ r.length = u.subLength.toNat ∧
      r.slot = if r.kind = .fill then none else some u.subSlot.toNat := by
  unfold Bus.submission at h
  split at h
  next kind _ hk _ =>
    injection h with h
    subst h
    exact ⟨rfl, (code_of_kindOfCode hk).trans (toNat_field _ _ _), rfl, rfl, rfl⟩
  next => cases h

/-! ### The checks of a request -/

/-- Check 5 of R23, by kind code. -/
theorem Request.lengthBad_iff (r : Request) :
    r.lengthBad = true ↔
      ((r.kind.code = 0 ∨ r.kind.code = 3) ∧ (r.length = 0 ∨ 512 < r.length)) ∨
        (¬ (r.kind.code = 0 ∨ r.kind.code = 3) ∧
          (r.length < 4 ∨ 512 < r.length ∨ r.length % 4 ≠ 0)) := by
  unfold Request.lengthBad
  rw [← r.kind.reads_iff]
  cases r.kind.reads <;> simp

/-- Check 6 of R23, by kind code. -/
theorem Request.alignBad_iff (r : Request) :
    r.alignBad = true ↔ ¬ (r.kind.code = 0 ∨ r.kind.code = 3) ∧ r.address % 4 ≠ 0 := by
  unfold Request.alignBad
  rw [← r.kind.reads_iff]
  cases r.kind.reads <;> simp

/-- Some slot of a span that lies in the buffer is LENT; slots past the last are none. -/
theorem Staging.spanBusy_iff (b : Staging) (start count : Nat) :
    b.spanBusy start count = true ↔
      ∃ i : Fin 32, start ≤ i.val ∧ i.val < start + count ∧ b.owner.get i ≠ none := by
  simp only [Staging.spanBusy, List.any_eq_true, List.mem_range]
  constructor
  · rintro ⟨k, hk, hbusy⟩
    by_cases hin : start + k < 32
    · refine ⟨⟨start + k, hin⟩, by simp, by simpa using hk, ?_⟩
      rw [Vector.getElem?_eq_getElem hin] at hbusy
      exact Option.isSome_iff_ne_none.1 hbusy
    · rw [Vector.getElem?_eq_none (by omega)] at hbusy
      cases hbusy
  · rintro ⟨i, hlo, hhi, hbusy⟩
    refine ⟨i.val - start, by omega, ?_⟩
    rw [Nat.add_sub_cancel' hlo, Vector.getElem?_eq_getElem i.isLt]
    exact Option.isSome_iff_ne_none.2 hbusy

/-- Check 8 of R23, for a request whose slot is absent when it is a FILL. -/
theorem Request.slotBad_iff {r : Request} {n : Nat}
    (h : r.slot = if r.kind = .fill then none else some n) :
    r.slotBad = true ↔ r.kind.code ≠ 2 ∧ 32 < n + (r.length + 63) / 64 := by
  rw [Request.slotBad, h, Ne, ← r.kind.eq_fill_iff]
  by_cases hfill : r.kind = .fill
  · simp [hfill]
  · simp only [hfill, if_false, not_false_eq_true, true_and]
    exact decide_eq_true_iff

/-- Check 9 of R23, for a request whose slot is absent when it is a FILL. -/
theorem Request.slotBusy_iff {r : Request} {n : Nat} (b : Staging)
    (h : r.slot = if r.kind = .fill then none else some n) :
    r.slotBusy b = true ↔ r.kind.code ≠ 2 ∧ ∃ i : Fin 32,
      n ≤ i.val ∧ i.val < n + (r.length + 63) / 64 ∧ b.owner.get i ≠ none := by
  rw [Request.slotBusy, h, Ne, ← r.kind.eq_fill_iff]
  by_cases hfill : r.kind = .fill
  · simp [hfill]
  · simp only [hfill, if_false, not_false_eq_true, true_and]
    exact b.spanBusy_iff n (spanSlots r.length)

/-! ### What a post does -/

/-- A post whose checks pass has a request, since a submission that names none fails check 3. -/
theorem State.submission_of_checkPost_accepted {s : State} (h : s.checkPost = .accepted) :
    ∃ r, s.bus.submission = some r := by
  unfold State.checkPost at h
  split at h
  · cases h
  · split at h
    · cases h
    · split at h
      · cases h
      next r hr => exact ⟨r, hr⟩

/-- An accepted post is the acceptance of its request (R25). -/
theorem exec_post_accepted {s : State} {r : Request} (v : Word) (hlow : s.resetLow = false)
    (hcheck : s.checkPost = .accepted) (hr : s.bus.submission = some r) :
    exec (.post v) s = .next (s.accept r) := by
  show s.take _ = _
  rw [State.take_high hlow, hcheck, hr]

/-- A refused post stores the status of its first failing check (R24). -/
theorem exec_post_refused {s : State} (v : Word) (hlow : s.resetLow = false)
    (hcheck : s.checkPost ≠ .accepted) :
    exec (.post v) s = .next { s with bus.submitStatus := s.checkPost } := by
  show s.take _ = _
  rw [State.take_high hlow]
  split
  next heq _ => exact absurd heq hcheck
  next => rfl

@[simp] theorem State.accept_submitStatus (s : State) (r : Request) :
    (s.accept r).bus.submitStatus = .accepted := by
  simp [State.accept]

/-- A post leaves the status of its checks, accepted or refused. -/
theorem exec_post_status {s : State} (v : Word) (hlow : s.resetLow = false) :
    ∃ t, exec (.post v) s = .next t ∧ t.bus.submitStatus = s.checkPost := by
  by_cases hcheck : s.checkPost = .accepted
  · obtain ⟨r, hr⟩ := State.submission_of_checkPost_accepted hcheck
    exact ⟨_, exec_post_accepted v hlow hcheck hr, by rw [hcheck, State.accept_submitStatus]⟩
  · exact ⟨_, exec_post_refused v hlow hcheck, rfl⟩

/-- The checks of a post do not look at the submit status. -/
theorem State.checkPost_withStatus (s : State) (status : SubmitStatus) :
    State.checkPost { s with bus.submitStatus := status } = s.checkPost := rfl

/-! ### What a release does -/

/-- A release of a queue with a head drops the head (R36). -/
theorem exec_release_cons {s : State} {d : Completion} {rest : List Completion} (v : Word)
    (hlow : s.resetLow = false) (hdone : s.pool.done = d :: rest) :
    exec (.release v) s = .next { s with pool.done := rest } := by
  show s.take _ = _
  rw [State.take_high hlow, hdone]

/-- A release of an empty queue is a fault (R37). -/
theorem exec_release_nil {s : State} (v : Word) (hlow : s.resetLow = false)
    (hdone : s.pool.done = []) :
    exec (.release v) s = .next (s.raiseFault .emptyRelease 0) := by
  show s.take _ = _
  rw [State.take_high hlow, hdone]

/-- Raising a fault is what R181 says of it. -/
theorem Events.raiseFault_faultTaken (u : Events) (kind : FaultKind) (detail : Word) :
    FaultTaken kind detail u (u.raiseFault kind detail) :=
  ⟨u.raiseFault_empty kind detail, u.raiseFault_full kind detail⟩

/-! ### The statements -/

/-- Settles O7: the model's chain of checks is compared with that of R23 condition by condition. -/
theorem postReportsTheFirstFailingCheck : Obligations.PostReportsTheFirstFailingCheck := by
  intro v s hlow
  obtain ⟨t, ht, hstatus⟩ := exec_post_status v hlow
  refine ⟨t, ht, ?_⟩
  rw [hstatus, State.checkPost]
  refine if_congr s.pool.free_eq_zero_iff rfl (if_congr Iff.rfl rfl ?_)
  have hkind := s.bus.submission_eq_none_iff
  cases hsub : s.bus.submission with
  | none => exact (if_pos (hkind.1 hsub)).symm
  | some r =>
    rw [if_neg fun hbad => Option.some_ne_none r (hsub.symm.trans (hkind.2 hbad))]
    obtain ⟨htag, hcode, haddress, hlength, hslot⟩ := Bus.submission_fields hsub
    rw [← htag, ← hcode, ← haddress, ← hlength]
    exact if_congr (s.pool.tagLive_iff r.tag) rfl <|
      if_congr r.lengthBad_iff rfl <|
      if_congr r.alignBad_iff rfl <|
      if_congr Iff.rfl rfl <|
      if_congr (Request.slotBad_iff hslot) rfl <|
      if_congr (Request.slotBusy_iff s.staging hslot) rfl rfl

/-- Settles O8: the post was refused, for an accepted one leaves ACCEPTED; and the checks do not look
at the one field that it changed. -/
theorem refusedPostChangesOnlyTheStatus : Obligations.RefusedPostChangesOnlyTheStatus := by
  intro v w s t hlow ht hrefused
  obtain ⟨t', ht', hstatus⟩ := exec_post_status v hlow
  obtain rfl : t = t' := Host.Outcome.next.inj (ht.symm.trans ht')
  rw [hstatus] at hrefused
  obtain rfl : t = { s with bus.submitStatus := s.checkPost } :=
    Host.Outcome.next.inj (ht.symm.trans (exec_post_refused v hlow hrefused))
  have hagain : State.checkPost { s with bus.submitStatus := s.checkPost } ≠ .accepted := by
    rwa [s.checkPost_withStatus]
  exact ⟨rfl, exec_post_refused w hlow hagain⟩

/-- Settles O10: the counts are those of a pool without its head, and the head's tag is on no other
record. -/
theorem releaseFreesTheHead : Obligations.ReleaseFreesTheHead := by
  intro v s d rest hlow hdone hlive htags
  refine ⟨_, exec_release_cons v hlow hdone, rfl, ?_, Pool.tag_notMem_tags_pop hdone htags, ?_⟩
  · have := Pool.live_pop hdone
    simp only [Pool.free]
    omega
  · rw [hdone, List.length_cons]

/-- Settles O11: the release is the fault, and the fault is the Event Unit's alone. -/
theorem emptyReleaseFaults : Obligations.EmptyReleaseFaults := by
  intro v s hlow hdone
  exact ⟨_, s.events.raiseFault_faultTaken .emptyRelease 0, exec_release_nil v hlow hdone⟩

end Sys2Proof.Machine

/-! The start-up (R140, R141, R147): when a load image is valid, what START_ARRAY answers in each
array state, and the statement on it. -/

namespace Sys2Proof.Machine

/-! ### The outcome of START_ARRAY -/

/-- The check of a load image is R147's, with the latencies read from the bits of M0 and M2. -/
theorem validImage_iff (image : Vector Word 4) : validImage image = true ↔ ImageValid image :=
  decide_eq_true_iff

/-- START_ARRAY takes a valid image in COLD (R140). -/
theorem State.startArrayOutcome_accepted {s : State} (hcold : s.ctrl.arrayState = .cold)
    (himage : ImageValid s.ctrl.shadows) : s.startArrayOutcome = .accepted := by
  rw [State.startArrayOutcome, if_neg (not_not_intro hcold), if_pos ((validImage_iff _).2 himage)]

/-- In COLD an image that is not valid is what START_ARRAY is refused for (R140, R147). -/
theorem State.startArrayOutcome_modeFault {s : State} (hcold : s.ctrl.arrayState = .cold)
    (himage : ¬ ImageValid s.ctrl.shadows) : s.startArrayOutcome = .modeFault := by
  rw [State.startArrayOutcome, if_neg (not_not_intro hcold), if_neg (mt (validImage_iff _).1 himage)]

/-- Outside COLD the image is not looked at (R140). -/
theorem State.startArrayOutcome_state {s : State} (hcold : s.ctrl.arrayState ≠ .cold) :
    s.startArrayOutcome = .state :=
  if_pos hcold

/-! ### What START_ARRAY does -/

/-- An accepted START_ARRAY begins the start-up and answers ACCEPTED under its code. -/
theorem exec_startArray_accepted {s : State} (hlow : s.resetLow = false)
    (haccepted : s.startArrayOutcome = .accepted) :
    exec .startArray s = .next (s.startArray.answer 1 .accepted) := by
  show s.command 1 s.startArrayOutcome s.startArray = _
  rw [haccepted, State.command_accepted hlow]

/-- A refused START_ARRAY stores its code and outcome in the command status, and that is all (R184). -/
theorem exec_startArray_refused {s : State} {o : CommandOutcome} (hlow : s.resetLow = false)
    (houtcome : s.startArrayOutcome = o) (hrefused : o ≠ .accepted) :
    exec .startArray s = .next (s.answer 1 o) := by
  show s.command 1 s.startArrayOutcome s.startArray = _
  rw [houtcome, State.command_refused hlow hrefused]

/-! ### The statement -/

/-- Settles O21: the three cases are the three outcomes, and the phase's length is the host copy of
parameter 16 at the command. -/
theorem startArrayBeginsTheStartUp : Obligations.StartArrayBeginsTheStartUp := by
  intro s hlow
  refine ⟨fun hcold himage => ?accepted, fun hcold himage => ?modeFault, fun hcold => ?state⟩
  case accepted =>
    exact exec_startArray_accepted hlow (State.startArrayOutcome_accepted hcold himage)
  case modeFault =>
    exact exec_startArray_refused hlow (State.startArrayOutcome_modeFault hcold himage) nofun
  case state =>
    exact exec_startArray_refused hlow (State.startArrayOutcome_state hcold) nofun

end Sys2Proof.Machine

/-! The acknowledge and INT# (R179, R180): which bits an acknowledge leaves set, when INT# is asserted,
and the statement on them. -/

namespace Sys2Proof.Machine

/-! ### What an acknowledge leaves -/

/-- A flag is set after an acknowledge when it was set and the value does not name it (R179). -/
theorem Events.acknowledge_getLsbD_flags (u : Events) (v : Word) (i : Fin 8) :
    (u.acknowledge v).flags.getLsbD i = (u.flags.getLsbD i && !v.getLsbD i) := by
  simp [Events.acknowledge, i.isLt]

/-- The fault record is emptied by an acknowledge that names FAULT, bit 7, and by no other (R179). -/
theorem Events.acknowledge_record (u : Events) (v : Word) :
    (u.acknowledge v).record = if v.getLsbD 7 then none else u.record := rfl

/-- EVENT_ACKNOWLEDGE is the acknowledge of the Event Unit, and nothing outside it. -/
theorem exec_eventAcknowledge {s : State} (v : Word) (hlow : s.resetLow = false) :
    exec (.eventAcknowledge v) s = .next { s with events := s.events.acknowledge v } := by
  show s.take _ = _
  rw [State.take_high hlow]

/-! ### INT# -/

/-- INT# is asserted exactly while some flag is both set and enabled (R180). -/
theorem State.intAsserted_iff (s : State) : s.intAsserted = true ↔
    ∃ i : Fin 8, s.events.flags.getLsbD i = true ∧ s.events.enables.getLsbD i = true := by
  rw [State.intAsserted, bne_iff_ne, Ne, BitVec.ofNat_eq_ofNat, BitVec.zero_iff_eq_false, not_forall]
  simp only [Bool.not_eq_false, BitVec.getLsbD_and, Bool.and_eq_true]
  constructor
  · rintro ⟨i, hflag, henable⟩
    exact ⟨⟨i, BitVec.lt_of_getLsbD hflag⟩, hflag, henable⟩
  · rintro ⟨i, hboth⟩
    exact ⟨i, hboth⟩

/-! ### The statement -/

/-- Settles O18: the acknowledge keeps the enables, so the next state differs in the flags and the
record alone, and INT# is read from those flags. -/
theorem acknowledgeClearsTheNamedFlags : Obligations.AcknowledgeClearsTheNamedFlags := by
  intro v s hlow
  exact ⟨_, exec_eventAcknowledge v hlow, rfl, s.events.acknowledge_getLsbD_flags v,
    s.events.acknowledge_record v, State.intAsserted_iff _⟩

end Sys2Proof.Machine

/-! What each command may write: the blocks of the state that it can change, the queue that it leaves,
and the AC count that never runs back. -/

namespace Sys2Proof.Machine

/-! ### Blocks -/

/-- The blocks of the state, as spec/00 lists them. -/
inductive Part where
  | bus | pool | staging | events | sched | table | refresh | capture | setup | ctrl | array

/-- From `s` to `t` no block outside a list has changed, the queue is the same, and the AC count has not
run back. -/
def State.keepsBut (s t : State) (ps : List Part) : Prop :=
  (.bus ∉ ps → t.bus = s.bus) ∧ (.pool ∉ ps → t.pool = s.pool) ∧
  (.staging ∉ ps → t.staging = s.staging) ∧ (.events ∉ ps → t.events = s.events) ∧
  (.sched ∉ ps → t.sched = s.sched) ∧ (.table ∉ ps → t.table = s.table) ∧
  (.refresh ∉ ps → t.refresh = s.refresh) ∧ (.capture ∉ ps → t.capture = s.capture) ∧
  (.setup ∉ ps → t.setup = s.setup) ∧ (.ctrl ∉ ps → t.ctrl = s.ctrl) ∧
  (.array ∉ ps → t.array = s.array) ∧ t.pending = s.pending ∧ s.now ≤ t.now

/-- The blocks that a command can write. -/
def partsOf : Instr → List Part
  | .post _ => [.bus, .pool, .staging, .ctrl, .sched]
  | .release _ => [.pool, .events]
  | .dataPortWrite _ => [.bus, .staging, .events]
  | .dataPortRead => [.bus, .events]
  | .dataPortPointerWrite _ | .plainRegisterWrite _ _ => [.bus]
  | .timingParameterWrite _ | .geometryWrite _ | .arrayDivWrite _ => [.setup, .events]
  | .policyWrite _ => [.table, .events]
  | .ageLimitWrite _ => [.sched, .events]
  | .refreshSettingWrite _ => [.refresh, .events, .ctrl, .sched]
  | .ringDescriptorWrite _ => [.capture, .events]
  | .autoAlignWrite _ | .laneDelayWrite _ => [.ctrl, .events]
  | .consumerWrite _ | .captureByteArrival _ => [.capture, .events, .ctrl, .sched]
  | .eventAcknowledge _ | .eventEnableWrite _ | .unknownCommandWrite _ => [.events]
  | .startArray | .setMode | .retainExit => [.bus, .ctrl, .setup, .sched]
  | .align | .retainEnter => [.bus, .ctrl, .sched]
  | .closeAll => [.bus, .table, .ctrl, .sched]
  | .abort => [.bus, .pool, .staging, .events, .sched]
  | .clearRetention => [.bus, .refresh]
  | .captureStart => [.bus, .capture]
  | .captureStop => [.bus, .capture, .events, .ctrl, .sched]
  | .softReset | .softResetTakesEffect =>
    [.bus, .pool, .staging, .events, .sched, .capture, .ctrl, .array]
  | .hardwareReset =>
    [.bus, .pool, .staging, .events, .sched, .table, .refresh, .capture, .setup, .ctrl, .array]
  | .resetRelease => []
  | .refreshPeriodExpiry => [.refresh, .events, .array, .sched, .ctrl]
  | .shadowWrite _ _ | .dozeIdleExpiry | .readHoldExpiry | .resetHoldExpiry | .wakePhaseExpiry
  | .strobeProbeCompletion _ _ | .strobeProbe => [.ctrl]
  | .wakeEnd | .napIn => [.ctrl, .sched]
  | .openDelayExpiry _ => [.table, .sched]
  | .closeTimeExpiry _ | .modeHoldExpiry | .renewCompletion => [.table, .ctrl, .sched, .events]
  | .modeSettleExpiry | .retainExitTimeExpiry => [.table, .ctrl, .sched, .events, .refresh]
  | .shutWindowExpiry _ _ | .openSpacingExpiry => [.table]
  | .settlePhaseExpiry => [.ctrl, .setup, .table]
  | .lockPhaseExpiry => [.ctrl, .refresh, .events, .sched]
  | .retainMinExpiry => [.ctrl, .setup, .sched]
  | .readBurstCompletion => [.sched, .staging, .pool, .table, .events]
  | .writeBurstCompletion => [.sched, .staging, .pool, .table, .events, .array]
  | .selection | .recordBurstGrant | .captureChunkGrant | .urgentRefreshGrant => [.pool, .sched]
  | .shutClaimGrant | .opportunisticRefreshGrant => [.sched]
  | .drainGrant | .restoreGrant => [.sched, .ctrl, .events]
  | .rowOpen | .modeLoad => [.table, .ctrl]
  | .rowShut => [.table, .ctrl, .sched]
  | .readBurst => [.table, .ctrl, .pool, .sched]
  | .writeBurst => [.table, .ctrl, .pool, .sched, .capture, .events]
  | .renew => [.table, .ctrl, .refresh, .sched]
  | .retainIn => [.ctrl, .sched, .refresh]

theorem State.keepsBut_refl (s : State) (ps : List Part) : s.keepsBut s ps :=
  ⟨fun _ => rfl, fun _ => rfl, fun _ => rfl, fun _ => rfl, fun _ => rfl, fun _ => rfl, fun _ => rfl,
    fun _ => rfl, fun _ => rfl, fun _ => rfl, fun _ => rfl, rfl, le_rfl⟩

/-! ### The AC count -/

theorem State.le_issuePoint {s : State} {m : Nat} (h : m ≤ s.now) : m ≤ s.issuePoint :=
  h.trans s.now_le_issuePoint

theorem State.le_wakeCause_now {s : State} {m : Nat} (h : m ≤ s.now) : m ≤ s.wakeCause.now := by
  rcases s.wakeCause_cases with ⟨_, _, e⟩ | ⟨_, _, e⟩ | e <;> rw [e]
  · exact h.trans s.now_le_issuePoint
  · exact h
  · exact h

theorem State.le_demandCause_now {s : State} {m : Nat} (h : m ≤ s.now) : m ≤ s.demandCause.now := by
  unfold State.demandCause
  split
  · exact State.le_wakeCause_now h
  · exact h

theorem State.le_askForArray_now {s : State} {d : Drain} {m : Nat} (h : m ≤ s.now) :
    m ≤ (s.askForArray d).now := by
  unfold State.askForArray
  split <;> exact State.le_wakeCause_now h

theorem State.le_urgentCause_now {s : State} {m : Nat} (h : m ≤ s.now) : m ≤ s.urgentCause.now := by
  unfold State.urgentCause
  split
  · simpa using State.le_wakeCause_now h
  · simpa using h

theorem State.le_offer_now {s : State} {w : Word} {m : Nat} (h : m ≤ s.now) :
    m ≤ (s.offer w).now := by
  unfold State.offer
  split
  · exact State.le_demandCause_now h
  · exact h

theorem State.now_le_accept (s : State) (r : Request) : s.now ≤ (s.accept r).now :=
  State.le_wakeCause_now le_rfl

theorem State.now_le_setMode (s : State) : s.now ≤ s.setMode.now :=
  State.le_askForArray_now (s := { s with setup := s.setup.loadWorking }) le_rfl

theorem State.now_le_startAlign (s : State) : s.now ≤ s.startAlign.now :=
  State.le_askForArray_now le_rfl

theorem State.now_le_captureStop (s : State) : s.now ≤ s.captureStop.now := by
  unfold State.captureStop
  split
  · exact le_rfl
  · exact State.le_demandCause_now le_rfl

@[simp] theorem State.beginExit_now (s : State) : s.beginExit.now = s.issuePoint := rfl
@[simp] theorem State.openRow_now (s : State) (b : Fin 8) (row t : Nat) :
    (s.openRow b row t).now = t := rfl
@[simp] theorem State.shutRow_now (s : State) (b : Fin 8) (t : Nat) : (s.shutRow b t).now = t := rfl
@[simp] theorem State.loadMode_now (s : State) (word : Fin 4) (v : Word) (t : Nat) :
    (s.loadMode word v t).now = t := rfl
@[simp] theorem State.issueRead_now (s : State) (a : Active) (x : Block) (l t : Nat) :
    (s.issueRead a x l t).now = t := rfl
@[simp] theorem State.issueWrite_now (s : State) (x : Block) (data : List Word) (user : BurstUser)
    (w t : Nat) : (s.issueWrite x data user w t).now = t := rfl

@[simp] theorem State.lockRestartStep_now (s : State) : s.lockRestartStep.now = s.now := by
  unfold State.lockRestartStep
  dsimp only
  split <;> rfl

/-! ### Operations without a frame of their own so far -/

/-- What a rejected setting leaves as it was. -/
@[simp] theorem State.rangeFault_frame (s : State) :
    s.rangeFault.bus = s.bus ∧ s.rangeFault.pool = s.pool ∧ s.rangeFault.staging = s.staging ∧
    s.rangeFault.sched = s.sched ∧ s.rangeFault.table = s.table ∧ s.rangeFault.refresh = s.refresh ∧
    s.rangeFault.capture = s.capture ∧ s.rangeFault.setup = s.setup ∧ s.rangeFault.ctrl = s.ctrl ∧
    s.rangeFault.array = s.array ∧ s.rangeFault.resetLow = s.resetLow ∧
    s.rangeFault.now = s.now ∧ s.rangeFault.pending = s.pending := by
  simp [State.rangeFault]

/-- What the end of QUEUED records leaves as it was. -/
@[simp] theorem State.retireQueued_frame (s : State) (l : List Queued) :
    (s.retireQueued l).bus = s.bus ∧ (s.retireQueued l).sched = s.sched ∧
    (s.retireQueued l).table = s.table ∧ (s.retireQueued l).refresh = s.refresh ∧
    (s.retireQueued l).capture = s.capture ∧ (s.retireQueued l).setup = s.setup ∧
    (s.retireQueued l).ctrl = s.ctrl ∧ (s.retireQueued l).array = s.array ∧
    (s.retireQueued l).now = s.now ∧ (s.retireQueued l).pending = s.pending := by
  obtain ⟨owner, h, _⟩ := s.retireQueued_spec l
  rw [h]
  simp

/-- What ABORT leaves as it was. -/
@[simp] theorem State.abortAll_frame (s : State) :
    s.abortAll.bus = s.bus ∧ s.abortAll.table = s.table ∧ s.abortAll.refresh = s.refresh ∧
    s.abortAll.capture = s.capture ∧ s.abortAll.setup = s.setup ∧ s.abortAll.ctrl = s.ctrl ∧
    s.abortAll.array = s.array ∧ s.abortAll.now = s.now ∧ s.abortAll.pending = s.pending := by
  simp [State.abortAll]

/-! ### The points of the commands that are taken at some AC -/

theorem State.now_le_of_map_pointOf {s : State} {o : Option Nat} {n : Nat}
    (h : o.map s.pointOf = some n) : s.now ≤ n := by
  obtain ⟨p, _, rfl⟩ := Option.map_eq_some_iff.1 h
  exact s.now_le_pointOf p

theorem State.now_le_of_map_issuePoint {α : Type} {s : State} {o : Option α} {n : Nat}
    (h : (o.map fun _ => s.issuePoint) = some n) : s.now ≤ n := by
  obtain ⟨_, _, rfl⟩ := Option.map_eq_some_iff.1 h
  exact s.now_le_issuePoint

theorem State.now_le_of_ite_issuePoint {s : State} {p : Bool} {n : Nat}
    (h : (if p then some s.issuePoint else none) = some n) : s.now ≤ n := by
  split at h
  · injection h with h
    exact h ▸ s.now_le_issuePoint
  · cases h

/-- The points of a phase of STARTING, of a wake and of a retain exit are not before the present AC. -/
theorem State.now_le_of_phase {s : State} {n : Nat}
    (h : s.wakeEndAt = some n ∨ s.resetHoldAt = some n ∨ s.wakePhaseAt = some n ∨
      s.settlePhaseAt = some n ∨ s.lockPhaseAt = some n ∨ s.retainExitTimeAt = some n) :
    s.now ≤ n := by
  unfold State.wakeEndAt State.resetHoldAt State.wakePhaseAt State.settlePhaseAt State.lockPhaseAt
    State.retainExitTimeAt at h
  cases hp : s.ctrl.progress <;> simp [hp, State.pointOf] at h <;> omega

/-- The completion of a probe is not before the present AC. -/
theorem State.now_le_of_probeCompletionAt {s : State} {n : Nat} (h : s.probeCompletionAt = some n) :
    s.now ≤ n := by
  obtain ⟨p, _, rfl⟩ := Option.map_eq_some_iff.1 h
  exact s.now_le_pointOf p.point

theorem State.now_le_of_burstCompletionAt {s : State} {w : Bool} {n : Nat}
    (h : s.burstCompletionAt w = some n) : s.now ≤ n := by
  unfold State.burstCompletionAt at h
  split at h
  · split at h
    · injection h with h
      exact h ▸ s.now_le_pointOf _
    · cases h
  · cases h

theorem State.now_le_readIssuePoint (s : State) (l : Nat) : s.now ≤ s.readIssuePoint l :=
  s.now_le_issuePoint.trans (Nat.le_max_left _ _)

theorem State.now_le_writeIssuePoint (s : State) (w : Nat) : s.now ≤ s.writeIssuePoint w :=
  s.now_le_issuePoint.trans (Nat.le_max_left _ _)

theorem State.now_le_of_readBurstAt {s : State} {n : Nat} (h : s.readBurstAt = some n) :
    s.now ≤ n := by
  obtain ⟨y, _, rfl⟩ := Option.map_eq_some_iff.1 h
  exact s.now_le_readIssuePoint _

theorem State.now_le_of_writeBurstAt {s : State} {n : Nat} (h : s.writeBurstAt = some n) :
    s.now ≤ n := by
  obtain ⟨y, _, rfl⟩ := Option.map_eq_some_iff.1 h
  exact s.now_le_writeIssuePoint _

/-! ### The rules by the shape of a command -/

theorem State.take_keepsBut {s u t : State} {ps : List Part} (h : s.take u = .next t)
    (hu : s.keepsBut u ps) : s.keepsBut t ps :=
  State.take_keeps (P := fun t => s.keepsBut t ps) h (s.keepsBut_refl ps) hu

theorem State.takeAt_keepsBut {s t : State} {ps : List Part} {point : Option Nat}
    {effect : Nat → State → State} (h : s.takeAt point effect = .next t)
    (hp : ∀ n, point = some n → s.now ≤ n) (hu : ∀ n, s.now ≤ n → s.keepsBut (effect n s) ps) :
    s.keepsBut t ps :=
  State.takeAt_keeps (P := fun t => s.keepsBut t ps) h (s.keepsBut_refl ps) fun n hn => hu n (hp n hn)

theorem State.command_keepsBut {s u t : State} {ps : List Part} {code : BitVec 4}
    {o : CommandOutcome} (h : s.command code o u = .next t) (hu : s.keepsBut u (.bus :: ps)) :
    s.keepsBut t (.bus :: ps) := by
  refine State.command_keeps (P := fun t => s.keepsBut t (.bus :: ps)) h (s.keepsBut_refl _) ?_
    fun _ => hu
  rintro x _ hx ⟨c, z, rfl⟩
  exact ⟨fun hn => absurd List.mem_cons_self hn, hx.2⟩

/-- A command writes its own blocks alone, leaves the queue, and never runs the AC count back. -/
theorem exec_keepsBut {c : Instr} {s t : State} (h : exec c s = .next t) :
    s.keepsBut t (partsOf c) := by
  cases c <;> simp only [exec] at h
  case hardwareReset | resetRelease =>
    injection h with h
    subst h
    simp [State.keepsBut, partsOf]
  case startArray | setMode | align | retainEnter | retainExit | closeAll | abort | clearRetention
      | captureStart | captureStop =>
    refine State.command_keepsBut h ?_
    (repeat' split) <;> simp [State.keepsBut, State.now_le_issuePoint, State.now_le_setMode,
      State.now_le_startAlign, State.le_askForArray_now, State.now_le_captureStop]
  case wakeEnd | resetHoldExpiry | wakePhaseExpiry | settlePhaseExpiry | lockPhaseExpiry |
      retainExitTimeExpiry =>
    refine State.takeAt_keepsBut h (fun n hn => State.now_le_of_phase (by simp [hn])) fun n hn => ?_
    (repeat' split) <;> simp [State.keepsBut, partsOf, hn]
  case refreshPeriodExpiry =>
    refine State.takeAt_keepsBut h (fun n hn => State.now_le_of_map_pointOf hn) fun n hn => ?_
    simp [State.keepsBut, partsOf, State.le_urgentCause_now, hn]
  case refreshSettingWrite =>
    refine State.take_keepsBut h ?_
    (repeat' split) <;> simp [State.keepsBut, partsOf, State.le_urgentCause_now]
  case consumerWrite =>
    refine State.take_keepsBut h ?_
    (repeat' split) <;> simp [State.keepsBut, partsOf, State.le_demandCause_now]
  case captureByteArrival =>
    refine State.take_keepsBut h ?_
    (repeat' split) <;> simp [State.keepsBut, partsOf, State.le_offer_now]
  case dozeIdleExpiry | openDelayExpiry | closeTimeExpiry |
      shutWindowExpiry | openSpacingExpiry | modeHoldExpiry | modeSettleExpiry | renewCompletion |
      readHoldExpiry | retainMinExpiry =>
    refine State.takeAt_keepsBut h (fun n hn => State.now_le_of_map_pointOf hn) fun n hn => ?_
    (repeat' split) <;> simp [State.keepsBut, partsOf, hn, State.le_issuePoint]
  case strobeProbeCompletion =>
    refine State.takeAt_keepsBut h (fun n hn => State.now_le_of_probeCompletionAt hn) fun n hn => ?_
    dsimp only
    (repeat' split) <;> simp [State.keepsBut, partsOf, hn]
  case rowOpen | rowShut | modeLoad =>
    refine State.takeAt_keepsBut h (fun n hn => State.now_le_of_map_issuePoint hn) fun n hn => ?_
    (repeat' split) <;> simp [State.keepsBut, partsOf, hn]
  case renew | strobeProbe | napIn | retainIn =>
    refine State.takeAt_keepsBut h (fun n hn => State.now_le_of_ite_issuePoint hn) fun n hn => ?_
    simp [State.keepsBut, partsOf, hn]
  case readBurst =>
    refine State.takeAt_keepsBut h (fun n hn => State.now_le_of_readBurstAt hn) fun n hn => ?_
    (repeat' split) <;> simp [State.keepsBut, partsOf, hn]
  case writeBurst =>
    refine State.takeAt_keepsBut h (fun n hn => State.now_le_of_writeBurstAt hn) fun n hn => ?_
    (repeat' split) <;> simp [State.keepsBut, partsOf, hn]
  case readBurstCompletion | writeBurstCompletion =>
    refine State.takeAt_keepsBut h (fun n hn => State.now_le_of_burstCompletionAt hn) fun n hn => ?_
    (repeat' split) <;> simp [State.keepsBut, partsOf, hn]
  all_goals
    refine State.take_keepsBut h ?_
    (repeat' split) <;> simp [State.keepsBut, partsOf, State.now_le_accept]

/-! ### Answers -/

theorem State.takeAt_answers (s : State) (point : Option Nat) (effect : Nat → State → State) :
    ∃ t, s.takeAt point effect = .next t := by
  unfold State.takeAt
  split
  · exact ⟨_, rfl⟩
  · exact ⟨_, rfl⟩

/-- While RESET# is low a step that would be taken at some AC is not taken (R192). -/
theorem State.takeAt_low {s : State} {point : Option Nat} {effect : Nat → State → State}
    (h : s.resetLow = true) : s.takeAt point effect = .next s := by
  unfold State.takeAt
  split
  · exact State.take_low h
  · rfl

/-- Every command answers a next state, and while RESET# is low it is the state itself but for the two
commands of RESET# (R192). -/
theorem exec_answers (c : Instr) (s : State) :
    (∃ t, exec c s = .next t) ∧
      (s.resetLow = true → c ≠ .hardwareReset → c ≠ .resetRelease → exec c s = .next s) := by
  cases c <;> simp only [exec]
  case hardwareReset | resetRelease => exact ⟨⟨_, rfl⟩, nofun⟩
  case refreshPeriodExpiry | dozeIdleExpiry | wakeEnd | openDelayExpiry | closeTimeExpiry |
      shutWindowExpiry | openSpacingExpiry | modeHoldExpiry | modeSettleExpiry | renewCompletion |
      readHoldExpiry | resetHoldExpiry | wakePhaseExpiry | settlePhaseExpiry | lockPhaseExpiry |
      retainMinExpiry | retainExitTimeExpiry | strobeProbeCompletion | readBurstCompletion |
      writeBurstCompletion | rowOpen | rowShut | readBurst | writeBurst | renew | modeLoad |
      strobeProbe | napIn | retainIn =>
    exact ⟨s.takeAt_answers _ _, fun h _ _ => State.takeAt_low h⟩
  all_goals exact ⟨⟨_, rfl⟩, fun h _ _ => State.take_low h⟩

/-! ### The statements -/

/-- Settles O1: it is the definition of a step. -/
theorem stepTakesTheFrontCommand : Obligations.StepTakesTheFrontCommand := by
  intro s c rest h
  rw [step, h]

/-- Settles O3: what a command may write says that the queue stays and the AC count does not fall. -/
theorem everyCommandAnswersAndLeavesTheQueue : Obligations.EveryCommandAnswersAndLeavesTheQueue := by
  intro c s
  obtain ⟨t, ht⟩ := (exec_answers c s).1
  obtain ⟨_, _, _, _, _, _, _, _, _, _, _, hpending, hnow⟩ := exec_keepsBut ht
  exact ⟨t, ht, hpending, hnow⟩

/-- Settles O4: every command but the two of RESET# is a step taken while RESET# is high. -/
theorem nothingIsTakenWhileResetIsLow : Obligations.NothingIsTakenWhileResetIsLow :=
  ⟨fun c s hlow => (exec_answers c s).2 hlow, fun _ => rfl⟩

end Sys2Proof.Machine

/-! The registers' ranges (R15, R17, R102, R181): the fault report, the refresh account and the settings
are kept by every command, so by every step. -/

namespace Sys2Proof.Machine

/-! ### The fault report -/

/-- FAULT and the fault record of an Event Unit agree (R181). -/
def Events.reportAgrees (u : Events) : Prop :=
  u.flags.getLsbD 7 = u.record.isSome ∧ ∀ r, u.record = some r → r.further ≤ 255

theorem State.faultReportAgrees_iff (s : State) : s.faultReportAgrees ↔ s.events.reportAgrees :=
  Iff.rfl

/-- Another event than FAULT leaves the fault report as it is. -/
theorem Events.reportAgrees_raise {u : Events} {e : Event} (he : e ≠ .fault) (h : u.reportAgrees) :
    { u with flags := u.flags ||| e.mask }.reportAgrees := by
  refine ⟨?_, h.2⟩
  rw [← h.1]
  cases e <;> first | exact absurd rfl he | simp [Event.mask, Event.bit]

theorem Events.reportAgrees_raiseFault {u : Events} (k : FaultKind) (d : Word)
    (h : u.reportAgrees) : (u.raiseFault k d).reportAgrees := by
  obtain ⟨hflag, hfurther⟩ := h
  cases hr : u.record with
  | none =>
    rw [u.raiseFault_empty k d hr]
    simp [Events.reportAgrees, Event.mask, Event.bit]
  | some r =>
    rw [u.raiseFault_full k d r hr]
    simp [Events.reportAgrees, hflag, hr]

theorem Events.reportAgrees_acknowledge {u : Events} (v : Word) (h : u.reportAgrees) :
    (u.acknowledge v).reportAgrees := by
  obtain ⟨hflag, hfurther⟩ := h
  have hbit : (u.acknowledge v).flags.getLsbD 7 = (u.flags.getLsbD 7 && !v.getLsbD 7) :=
    u.acknowledge_getLsbD_flags v 7
  unfold Events.reportAgrees
  rw [hbit, hflag, u.acknowledge_record]
  cases v.getLsbD 7
  · simpa using hfurther
  · simp

theorem Events.reportAgrees_softReset (u : Events) : u.softReset.reportAgrees := by
  simp [Events.reportAgrees, Events.softReset]

theorem Events.reportAgrees_reset : Events.reset.reportAgrees :=
  ⟨by decide, nofun⟩

theorem Events.reportAgrees_ite {u : Events} {e : Event} {p : Prop} [Decidable p] (he : e ≠ .fault)
    (h : u.reportAgrees) :
    { u with flags := if p then u.flags ||| e.mask else u.flags }.reportAgrees := by
  split
  · exact Events.reportAgrees_raise he h
  · exact h

/-! What the shared operations do to the fault report: nothing. -/

section
variable {s : State} (h : s.faultReportAgrees)
include h

theorem State.raiseEvent_report {e : Event} (he : e ≠ .fault) :
    (s.raiseEvent e).faultReportAgrees :=
  Events.reportAgrees_raise he h

theorem State.rangeFault_report : s.rangeFault.faultReportAgrees :=
  Events.reportAgrees_raiseFault _ _ h

theorem State.finishActive_report (a : Active) (r : Result) (m : Option (Nat × Nat)) :
    (s.finishActive a r m).faultReportAgrees :=
  Events.reportAgrees_ite nofun h

theorem State.retireQueued_report (l : List Queued) : (s.retireQueued l).faultReportAgrees := by
  obtain ⟨owner, e, _⟩ := s.retireQueued_spec l
  rw [e]
  exact Events.reportAgrees_ite nofun h

theorem State.abortActive_report : s.abortActive.faultReportAgrees := by
  unfold State.abortActive
  split
  · exact h
  · dsimp only
    split
    · exact h
    · exact State.finishActive_report (s := { s with sched := s.sched.endRecordJob }) h _ _ _

theorem State.abortAll_report : s.abortAll.faultReportAgrees :=
  State.abortActive_report
    (State.retireQueued_report (s := { s with pool.queued := [] }) h s.pool.queued)

theorem State.completeForRecord_report (x : Burst) : (s.completeForRecord x).faultReportAgrees := by
  cases ha : s.pool.active with
  | none => simpa [State.completeForRecord, ha, State.faultReportAgrees_iff] using h
  | some a =>
    rw [s.completeForRecord_some x a ha]
    have hu : ({ s.storeRequested a.req x with pool.active := some (s.counted a x) }.segmentEnd
        (s.counted a x) x).faultReportAgrees := by simpa [State.faultReportAgrees_iff] using h
    rcases State.finishIfLast_cases _ (s.counted a x) with
      ⟨_, e⟩ | ⟨_, _, ⟨_, e⟩ | ⟨_, _, e⟩ | ⟨_, _, e⟩⟩ <;> rw [e]
    · exact hu
    · exact State.finishActive_report hu _ _ _
    · exact hu
    · exact State.finishActive_report hu _ _ _

theorem State.completeWrite_report (x : Burst) : (s.completeWrite x).faultReportAgrees := by
  unfold State.completeWrite
  split
  · exact State.completeForRecord_report h x
  · simpa [State.faultReportAgrees_iff] using h
  · exact h

theorem State.endSetModeIfNothingToLoad_report :
    s.endSetModeIfNothingToLoad.faultReportAgrees := by
  unfold State.endSetModeIfNothingToLoad
  split
  · exact State.raiseEvent_report (s := s.enterReady) h nofun
  · exact h

theorem State.proceed_report : s.proceed.faultReportAgrees := by
  have hl : s.lookAtRefresh.faultReportAgrees := by simpa [State.faultReportAgrees_iff] using h
  simpa [State.proceed, State.faultReportAgrees_iff] using State.endSetModeIfNothingToLoad_report hl

theorem State.markIfReached_report : s.markIfReached.faultReportAgrees := by
  unfold State.markIfReached
  split
  · exact State.raiseEvent_report h nofun
  · exact h

theorem State.endRunIfEmpty_report : s.endRunIfEmpty.faultReportAgrees := by
  unfold State.endRunIfEmpty
  split
  · exact State.raiseEvent_report (s := { s with capture.state := .idle }) h nofun
  · exact h

theorem State.chunkAdvance_report : s.chunkAdvance.faultReportAgrees :=
  State.endRunIfEmpty_report (State.markIfReached_report h)

theorem State.afterWrite_report (x : Block) (u : BurstUser) :
    (s.afterWrite x u).faultReportAgrees := by
  unfold State.afterWrite
  split
  · exact State.chunkAdvance_report h
  · exact h
  · exact h

theorem State.captureStop_report : s.captureStop.faultReportAgrees := by
  unfold State.captureStop
  dsimp only
  split
  · exact State.raiseEvent_report (s := { s with capture := _ }) h nofun
  · simpa [State.faultReportAgrees_iff] using h

theorem State.offer_report (w : Word) : (s.offer w).faultReportAgrees := by
  unfold State.offer
  split
  · simpa [State.faultReportAgrees_iff] using h
  · exact State.raiseEvent_report (s := { s with capture := _ }) h nofun

theorem State.countPeriod_report : s.countPeriod.faultReportAgrees := by
  unfold State.countPeriod
  split
  · exact h
  · dsimp only
    split
    · exact h
    · exact Events.reportAgrees_raise nofun h

theorem State.endStartUp_report : s.endStartUp.faultReportAgrees :=
  Events.reportAgrees_raise (u := s.events) nofun h

theorem State.endRetainExit_report : s.endRetainExit.faultReportAgrees :=
  Events.reportAgrees_raise (u := s.events) nofun h

theorem State.endAlignment_report : s.endAlignment.faultReportAgrees := by
  have hu : (s.raiseEvent .alignDone).faultReportAgrees := State.raiseEvent_report h nofun
  unfold State.endAlignment
  dsimp only
  split
  · exact State.endStartUp_report hu
  · exact hu

theorem State.loadsSettled_report : s.loadsSettled.faultReportAgrees := by
  unfold State.loadsSettled
  split
  · exact h
  · exact State.raiseEvent_report (s := s.enterReady) h nofun

theorem State.afterSettle_report : s.afterSettle.faultReportAgrees := by
  unfold State.afterSettle
  split
  · split
    · exact State.loadsSettled_report h
    · exact h
  · exact h
  · simpa [State.faultReportAgrees_iff] using h
  · exact State.endAlignment_report h
  · exact State.endRetainExit_report h
  · exact State.proceed_report h

end

@[simp] theorem State.softResetEffect_events (s : State) :
    s.softResetEffect.events = s.events.softReset := by
  simp [State.softResetEffect]

theorem State.softResetEffect_report (s : State) : s.softResetEffect.faultReportAgrees := by
  rw [State.faultReportAgrees_iff, State.softResetEffect_events]
  exact s.events.reportAgrees_softReset

/-- Every command keeps the fault report: only a fault, an acknowledge and a reset touch it. -/
theorem exec_keeps_report {c : Instr} {s t : State} (h : exec c s = .next t)
    (hs : s.faultReportAgrees) : t.faultReportAgrees := by
  by_cases hc : .events ∈ partsOf c
  case neg =>
    obtain ⟨_, _, _, hevents, _⟩ := exec_keepsBut h
    rwa [State.faultReportAgrees_iff, hevents hc]
  cases c <;> simp only [exec] at h
  case hardwareReset =>
    injection h with h
    subst h
    exact Events.reportAgrees_reset
  case release =>
    refine State.take_keeps (P := State.faultReportAgrees) h hs ?_
    split
    · exact Events.reportAgrees_raiseFault _ _ hs
    · exact hs
  case consumerWrite =>
    refine State.take_keeps (P := State.faultReportAgrees) h hs ?_
    split
    · simpa [State.faultReportAgrees_iff] using hs
    · exact Events.reportAgrees_raiseFault _ _ hs
  case refreshSettingWrite =>
    refine State.take_keeps (P := State.faultReportAgrees) h hs ?_
    split
    · split
      · simpa [State.faultReportAgrees_iff] using hs
      · exact State.rangeFault_report (by exact hs)
    · split
      · split
        · exact hs
        · exact State.rangeFault_report (by exact hs)
      · exact hs
  case dataPortWrite | dataPortRead | timingParameterWrite | geometryWrite | arrayDivWrite |
      policyWrite | ageLimitWrite | ringDescriptorWrite | autoAlignWrite | laneDelayWrite |
      unknownCommandWrite =>
    refine State.take_keeps (P := State.faultReportAgrees) h hs ?_
    (repeat' split) <;>
      first | exact hs | exact Events.reportAgrees_raiseFault _ _ hs
  case eventAcknowledge =>
    exact State.take_keeps (P := State.faultReportAgrees) h hs (Events.reportAgrees_acknowledge _ hs)
  case eventEnableWrite => exact State.take_keeps (P := State.faultReportAgrees) h hs hs
  case abort =>
    exact State.command_keeps (P := State.faultReportAgrees) h hs
      (by rintro x _ hx ⟨_, _, rfl⟩; exact hx) fun _ =>
      State.abortAll_report (by exact hs)
  case captureStop =>
    exact State.command_keeps (P := State.faultReportAgrees) h hs
      (by rintro x _ hx ⟨_, _, rfl⟩; exact hx) fun _ =>
      State.captureStop_report (by exact hs)
  case captureByteArrival =>
    refine State.take_keeps (P := State.faultReportAgrees) h hs ?_
    split
    · split
      · exact hs
      · exact State.offer_report (by exact hs) _
    · exact hs
  case softReset =>
    refine State.take_keeps (P := State.faultReportAgrees) h hs ?_
    split
    · exact hs
    · exact State.softResetEffect_report _
  case softResetTakesEffect =>
    refine State.take_keeps (P := State.faultReportAgrees) h hs ?_
    split
    · exact State.softResetEffect_report _
    · exact hs
  case refreshPeriodExpiry =>
    refine State.takeAt_keeps (P := State.faultReportAgrees) h hs fun n _ => ?_
    simpa [State.faultReportAgrees_iff] using
      State.countPeriod_report (s := (s.atAC n).nextRefreshPeriod) hs
  case closeTimeExpiry | modeHoldExpiry | renewCompletion =>
    exact State.takeAt_keeps (P := State.faultReportAgrees) h hs fun n _ =>
      State.proceed_report (by exact hs)
  case modeSettleExpiry =>
    exact State.takeAt_keeps (P := State.faultReportAgrees) h hs fun n _ =>
      State.afterSettle_report (by exact hs)
  case lockPhaseExpiry =>
    refine State.takeAt_keeps (P := State.faultReportAgrees) h hs fun n _ => ?_
    dsimp only
    split
    · exact hs
    · exact State.endStartUp_report (by exact hs)
  case retainExitTimeExpiry =>
    refine State.takeAt_keeps (P := State.faultReportAgrees) h hs fun n _ => ?_
    split
    · simpa [State.faultReportAgrees_iff] using hs
    · exact State.endRetainExit_report (by exact hs)
  case readBurstCompletion =>
    refine State.takeAt_keeps (P := State.faultReportAgrees) h hs fun n _ => ?_
    split
    · exact State.completeForRecord_report (by exact hs) _
    · exact hs
  case writeBurstCompletion =>
    refine State.takeAt_keeps (P := State.faultReportAgrees) h hs fun n _ => ?_
    split
    · exact State.completeWrite_report (by exact hs) _
    · exact hs
  case drainGrant =>
    refine State.take_keeps (P := State.faultReportAgrees) h hs ?_
    split
    · exact State.proceed_report (by exact hs)
    · exact hs
  case restoreGrant =>
    refine State.take_keeps (P := State.faultReportAgrees) h hs ?_
    split
    · exact State.proceed_report (by exact hs)
    · exact hs
  case writeBurst =>
    refine State.takeAt_keeps (P := State.faultReportAgrees) h hs fun n _ => ?_
    split
    · exact State.afterWrite_report (by exact hs) _ _
    · exact hs
  all_goals simp [partsOf] at hc

/-! ### The refresh account -/

section
variable {s : State} (h : s.refreshInRange)
include h

theorem State.countPeriod_refreshInRange : s.countPeriod.refreshInRange := by
  obtain ⟨hlo, hhi, hsettings⟩ := h
  unfold State.countPeriod
  split
  · exact ⟨by show -8 ≤ s.refresh.balance + 1; omega, by show s.refresh.balance + 1 ≤ 8; omega,
      hsettings⟩
  · obtain ⟨h1, h2, h3, h4, _⟩ := hsettings
    exact ⟨hlo, hhi, h1, h2, h3, h4, Nat.min_le_left _ _⟩

theorem State.endStartUp_refreshInRange : s.endStartUp.refreshInRange :=
  ⟨(by decide : (-8 : Int) ≤ 0), (by decide : (0 : Int) ≤ 8), h.2.2⟩

theorem State.afterSettle_refreshInRange : s.afterSettle.refreshInRange := by
  unfold State.afterSettle
  split
  · unfold State.loadsSettled
    (repeat' split) <;> exact h
  · exact h
  · simpa [State.refreshInRange] using h
  · unfold State.endAlignment
    dsimp only
    split
    · exact State.endStartUp_refreshInRange (by exact h)
    · exact h
  · exact h
  · simpa [State.refreshInRange] using h

end

/-- Every command keeps the refresh account in range (R102, R104, R105, R110). -/
theorem exec_keeps_refreshInRange {c : Instr} {s t : State} (h : exec c s = .next t)
    (hs : s.refreshInRange) : t.refreshInRange := by
  by_cases hc : .refresh ∈ partsOf c
  case neg =>
    obtain ⟨_, _, _, _, _, _, hrefresh, _⟩ := exec_keepsBut h
    rwa [State.refreshInRange, hrefresh hc]
  have ⟨h1, h2, h3, h4, h5, h6, h7⟩ := hs
  cases c <;> simp only [exec] at h
  case hardwareReset =>
    injection h with h
    subst h
    show (-8 : Int) ≤ 0 ∧ (0 : Int) ≤ 8 ∧ 1 ≤ 6 ∧ 6 ≤ 8 ∧ (-8 : Int) ≤ -2 ∧ (-2 : Int) ≤ 0 ∧ 0 ≤ 255
    decide
  case refreshSettingWrite v =>
    refine State.take_keeps (P := State.refreshInRange) h hs ?_
    split
    · split
      next hv =>
        simp only [State.refreshInRange, State.urgentCause_frame]
        exact ⟨h1, h2, hv.1, hv.2, h5, h6, h7⟩
      next => exact hs
    · split
      · split
        next hv => exact ⟨h1, h2, h3, h4, hv.1, hv.2, h7⟩
        next => exact hs
      · exact hs
  case clearRetention =>
    exact State.command_keeps (P := State.refreshInRange) h hs
      (by rintro x _ hx ⟨_, _, rfl⟩; exact hx) fun _ => hs
  case refreshPeriodExpiry =>
    refine State.takeAt_keeps (P := State.refreshInRange) h hs fun n _ => ?_
    simpa [State.refreshInRange] using
      State.countPeriod_refreshInRange (s := (s.atAC n).nextRefreshPeriod) hs
  case modeSettleExpiry =>
    exact State.takeAt_keeps (P := State.refreshInRange) h hs fun n _ =>
      State.afterSettle_refreshInRange (by exact hs)
  case lockPhaseExpiry =>
    refine State.takeAt_keeps (P := State.refreshInRange) h hs fun n _ => ?_
    dsimp only
    split
    · exact hs
    · exact State.endStartUp_refreshInRange (by exact hs)
  case retainExitTimeExpiry =>
    refine State.takeAt_keeps (P := State.refreshInRange) h hs fun n _ => ?_
    split
    · simpa [State.refreshInRange] using hs
    · exact hs
  case renew =>
    refine State.takeAt_keeps (P := State.refreshInRange) h hs fun n hn => ?_
    have hlow : -8 < s.refresh.balance := by
      by_contra hlow
      simp [State.renewAt, State.mayRenew, hlow] at hn
    simp only [State.refreshInRange, State.afterRenew_frame]
    exact ⟨by omega, by omega, h3, h4, h5, h6, h7⟩
  case retainIn => exact State.takeAt_keeps (P := State.refreshInRange) h hs fun n _ => hs
  all_goals simp [partsOf] at hc

/-! ### AGE_LIMIT -/

section
variable (s : State)

@[simp] theorem State.wakeCause_ageLimit : s.wakeCause.sched.ageLimit = s.sched.ageLimit := by
  rcases s.wakeCause_cases with ⟨_, _, e⟩ | ⟨_, _, e⟩ | e <;> rw [e] <;> rfl

@[simp] theorem State.demandCause_ageLimit : s.demandCause.sched.ageLimit = s.sched.ageLimit := by
  unfold State.demandCause
  split <;> simp

@[simp] theorem State.urgentCause_ageLimit : s.urgentCause.sched.ageLimit = s.sched.ageLimit := by
  unfold State.urgentCause
  split <;> simp

@[simp] theorem State.askForArray_ageLimit (d : Drain) :
    (s.askForArray d).sched.ageLimit = s.sched.ageLimit := by
  unfold State.askForArray
  split <;> simp

@[simp] theorem State.endHeldBurst_ageLimit :
    s.endHeldBurst.sched.ageLimit = s.sched.ageLimit := by
  rcases s.endHeldBurst_spec with e | ⟨_, _, e⟩ <;> rw [e]

@[simp] theorem State.proceed_ageLimit : s.proceed.sched.ageLimit = s.sched.ageLimit := by
  have h1 : ∀ u : State, u.endSetModeIfNothingToLoad.sched.ageLimit = u.sched.ageLimit := by
    intro u
    unfold State.endSetModeIfNothingToLoad
    split <;> rfl
  have h2 : ∀ u : State, u.endRestore.sched.ageLimit = u.sched.ageLimit := by
    intro u
    unfold State.endRestore
    (repeat' split) <;> rfl
  simp [State.proceed, h1, h2]

@[simp] theorem State.afterSettle_ageLimit : s.afterSettle.sched.ageLimit = s.sched.ageLimit := by
  unfold State.afterSettle State.loadsSettled State.endAlignment
  dsimp only
  (repeat' split) <;> first | rfl | simp

@[simp] theorem State.abortActive_ageLimit :
    s.abortActive.sched.ageLimit = s.sched.ageLimit := by
  unfold State.abortActive
  dsimp only
  (repeat' split) <;> simp [Sched.endRecordJob]

@[simp] theorem State.softResetArray_ageLimit :
    s.softResetArray.sched.ageLimit = s.sched.ageLimit := by
  unfold State.softResetArray
  (repeat' split) <;> rfl

@[simp] theorem State.softResetEffect_ageLimit :
    s.softResetEffect.sched.ageLimit = s.sched.ageLimit := by
  simp [State.softResetEffect]

@[simp] theorem State.accept_ageLimit (r : Request) :
    (s.accept r).sched.ageLimit = s.sched.ageLimit := by
  simp [State.accept]

@[simp] theorem State.countPeriod_ageLimit : s.countPeriod.sched.ageLimit = s.sched.ageLimit := by
  unfold State.countPeriod
  split <;> rfl

@[simp] theorem State.afterWake_ageLimit : s.afterWake.sched.ageLimit = s.sched.ageLimit := by
  unfold State.afterWake
  (repeat' split) <;> rfl

@[simp] theorem State.afterRenew_ageLimit : s.afterRenew.sched.ageLimit = s.sched.ageLimit := by
  unfold State.afterRenew
  (repeat' split) <;> rfl

@[simp] theorem State.afterWrite_ageLimit (x : Block) (u : BurstUser) :
    (s.afterWrite x u).sched.ageLimit = s.sched.ageLimit := by
  unfold State.afterWrite
  split <;> simp [State.chunkAdvance]

@[simp] theorem State.select_ageLimit : s.select.sched.ageLimit = s.sched.ageLimit := by
  unfold State.select
  split <;> simp

@[simp] theorem State.offer_ageLimit (w : Word) :
    (s.offer w).sched.ageLimit = s.sched.ageLimit := by
  unfold State.offer
  split <;> simp

@[simp] theorem State.captureStop_ageLimit :
    s.captureStop.sched.ageLimit = s.sched.ageLimit := by
  unfold State.captureStop
  dsimp only
  split <;> simp

@[simp] theorem State.closeAll_ageLimit : s.closeAll.sched.ageLimit = s.sched.ageLimit := by
  unfold State.closeAll
  dsimp only
  split <;> rfl

@[simp] theorem State.lockRestartStep_ageLimit :
    s.lockRestartStep.sched.ageLimit = s.sched.ageLimit := by
  unfold State.lockRestartStep
  dsimp only
  split <;> rfl

end

/-- AGE_LIMIT is written by its setting and by a hardware reset alone (R86). -/
theorem exec_ageLimit {c : Instr} {s t : State} (h : exec c s = .next t)
    (hc : ∀ v, c ≠ .ageLimitWrite v) (hr : c ≠ .hardwareReset) :
    t.sched.ageLimit = s.sched.ageLimit := by
  by_cases hp : .sched ∈ partsOf c
  case neg =>
    obtain ⟨_, _, _, _, hsched, _⟩ := exec_keepsBut h
    rw [hsched hp]
  let P (x : State) := x.sched.ageLimit = s.sched.ageLimit
  have answered : ∀ x y : State, P x → (∃ c z, y = x.answer c z) → P y := by
    rintro x _ hx ⟨_, _, rfl⟩
    exact hx
  cases c <;> simp only [exec] at h
  case ageLimitWrite v => exact absurd rfl (hc v)
  case hardwareReset => exact absurd rfl hr
  case startArray | retainExit =>
    refine State.command_keeps (P := P) h rfl answered fun _ => ?_
    (repeat' split) <;> rfl
  case setMode | align | retainEnter | closeAll | abort | captureStop =>
    refine State.command_keeps (P := P) h rfl answered fun _ => ?_
    simp [P, State.setMode, State.startAlign, State.abortAll]
  case refreshPeriodExpiry | wakeEnd | openDelayExpiry | closeTimeExpiry | modeHoldExpiry |
      modeSettleExpiry | renewCompletion | lockPhaseExpiry | retainMinExpiry |
      retainExitTimeExpiry | readBurstCompletion | writeBurstCompletion | napIn | rowShut |
      readBurst | writeBurst | renew | retainIn =>
    refine State.takeAt_keeps (P := P) h rfl fun n _ => ?_
    try dsimp only
    (repeat' split) <;> simp [P] <;> rfl
  all_goals simp [partsOf] at hp
  all_goals
    refine State.take_keeps (P := P) h rfl ?_
    (repeat' split) <;> simp [P] <;> rfl

/-! ### The settings -/

/-- The geometries, divisors and parameters are in range (R1, R15 to R17). -/
def Setup.inRange (u : Setup) : Prop :=
  (∀ n : Fin 19, inParamRange n (u.host.get n) = true) ∧
  (∀ n : Fin 16, inParamRange (n.castLE (by decide)) (u.working.get n) = true) ∧
  u.hostGeometry.allowed ∧ u.workGeometry.allowed ∧ divisorAllowed u.pendingDiv ∧
  ∀ d, u.appliedDiv = some d → divisorAllowed d

theorem State.settingsInRange_iff (s : State) :
    s.settingsInRange ↔ s.setup.inRange ∧ s.sched.ageLimit ≤ 15 := by
  simp only [State.settingsInRange, Setup.inRange, and_assoc]

theorem Setup.inRange_reset : Setup.reset.inRange := by
  refine ⟨by decide, by decide, ?_, ?_, ?_, nofun⟩
  · exact ⟨Or.inr (Or.inl rfl), Or.inr rfl⟩
  · exact ⟨Or.inr (Or.inl rfl), Or.inr rfl⟩
  · exact Or.inr (Or.inl rfl)

section
variable {u : Setup} (h : u.inRange)
include h

theorem Setup.inRange_loadWorking : u.loadWorking.inRange := by
  obtain ⟨hhost, hwork, hrest⟩ := h
  refine ⟨hhost, fun n => ?_, hrest⟩
  rw [u.loadWorking_get n]
  exact hhost _

/-- The pending divisor is applied (R17). -/
theorem Setup.inRange_apply : { u with appliedDiv := some u.pendingDiv }.inRange := by
  obtain ⟨hhost, hwork, hg, hw, hpending, _⟩ := h
  refine ⟨hhost, hwork, hg, hw, hpending, ?_⟩
  rintro d ⟨⟩
  exact hpending

theorem Setup.inRange_setHost {n v : Nat} (hn : n < 19) (hv : inParamRange ⟨n, hn⟩ v = true) :
    { u with host := u.host.set n v hn }.inRange := by
  obtain ⟨hhost, hrest⟩ := h
  refine ⟨fun i => ?_, hrest⟩
  show inParamRange i (u.host.set n v hn)[i.val] = true
  rw [Vector.getElem_set]
  split
  next e =>
    subst e
    exact hv
  next => exact hhost i

end

@[simp] theorem State.beginExit_setup (s : State) :
    s.beginExit.setup = { s.setup with appliedDiv := some s.setup.pendingDiv } := rfl

@[simp] theorem State.setMode_setup (s : State) : s.setMode.setup = s.setup.loadWorking := by
  simp [State.setMode]

/-- Every command keeps the parameters, geometries and divisors in range. -/
theorem exec_keeps_setup_inRange {c : Instr} {s t : State} (h : exec c s = .next t)
    (hs : s.setup.inRange) : t.setup.inRange := by
  by_cases hc : .setup ∈ partsOf c
  case neg =>
    obtain ⟨_, _, _, _, _, _, _, _, hsetup, _⟩ := exec_keepsBut h
    rwa [hsetup hc]
  let P (x : State) := x.setup.inRange
  have answered : ∀ x y : State, P x → (∃ c z, y = x.answer c z) → P y := by
    rintro x _ hx ⟨_, _, rfl⟩
    exact hx
  have ⟨hhost, hwork, hg, hwg, hpending, happlied⟩ := hs
  cases c <;> simp only [exec] at h
  case hardwareReset =>
    injection h with h
    subst h
    exact Setup.inRange_reset
  case timingParameterWrite v =>
    refine State.take_keeps (P := P) h hs ?_
    split
    · split
      next hv => exact Setup.inRange_setHost hs _ hv
      next => exact hs
    · exact hs
  case geometryWrite v =>
    refine State.take_keeps (P := P) h hs ?_
    split
    · split
      next hv => exact ⟨hhost, hwork, ⟨hv, hg.2⟩, hwg, hpending, happlied⟩
      next => exact hs
    · split
      · split
        next hv => exact ⟨hhost, hwork, ⟨hg.1, hv⟩, hwg, hpending, happlied⟩
        next => exact hs
      · exact hs
  case arrayDivWrite v =>
    refine State.take_keeps (P := P) h hs ?_
    split
    · split
      next hv => exact ⟨hhost, hwork, hg, hwg, hv, happlied⟩
      next => exact hs
    · exact hs
  case startArray =>
    refine State.command_keeps (P := P) h hs answered fun _ => ?_
    have ⟨_, _, _, _, _, ha⟩ := Setup.inRange_apply hs
    exact ⟨hhost, hwork, hg, hg, hpending, ha⟩
  case setMode =>
    refine State.command_keeps (P := P) h hs answered fun _ => ?_
    simpa [P] using Setup.inRange_loadWorking hs
  case retainExit =>
    refine State.command_keeps (P := P) h hs answered fun _ => ?_
    split
    · exact Setup.inRange_apply hs
    · exact hs
  case settlePhaseExpiry =>
    exact State.takeAt_keeps (P := P) h hs fun n _ => Setup.inRange_loadWorking hs
  case retainMinExpiry =>
    refine State.takeAt_keeps (P := P) h hs fun n _ => ?_
    dsimp only
    split
    · exact Setup.inRange_apply hs
    · exact hs
  all_goals simp [partsOf] at hc

/-- Every command keeps AGE_LIMIT in range (R86). -/
theorem exec_keeps_ageLimit {c : Instr} {s t : State} (h : exec c s = .next t)
    (hs : s.sched.ageLimit ≤ 15) : t.sched.ageLimit ≤ 15 := by
  by_cases hc : ∀ v, c ≠ .ageLimitWrite v
  · by_cases hr : c = .hardwareReset
    · subst hr
      injection h with h
      subst h
      exact (by decide : 4 ≤ 15)
    · rwa [exec_ageLimit h hc hr]
  · push Not at hc
    obtain ⟨v, rfl⟩ := hc
    simp only [exec] at h
    refine State.take_keeps (P := fun x => x.sched.ageLimit ≤ 15) h hs ?_
    split
    · split
      next hv => exact hv
      next => exact hs
    · exact hs

/-! ### The statement -/

/-- Settles O54: each invariant is kept by every command, and none looks at the queue, the draws or the
AC count. -/
theorem registersStayInRangeAtEveryStep : Obligations.RegistersStayInRangeAtEveryStep := by
  intro s t h
  refine ⟨fun hs => ?_, fun hs => ?_, fun hs => ?_⟩
  · exact step_keeps h hs (fun _ _ hx => hx) (fun _ _ hx => hx) (fun _ _ hx => hx)
      fun _ _ _ => exec_keeps_report
  · exact step_keeps h hs (fun _ _ hx => hx) (fun _ _ hx => hx) (fun _ _ hx => hx)
      fun _ _ _ => exec_keeps_refreshInRange
  · refine step_keeps h hs (fun _ _ hx => hx) (fun _ _ hx => hx) (fun _ _ hx => hx) ?_
    intro c x y hxy hx
    rw [State.settingsInRange_iff] at hx ⊢
    exact ⟨exec_keeps_setup_inRange hxy hx.1, exec_keeps_ageLimit hxy hx.2⟩

end Sys2Proof.Machine

/-! The memories: both keep their canonical form (log 21) at every step. -/

namespace Sys2Proof.Machine

/-! ### The memories -/

@[simp] theorem State.retire_words (s : State) (r : Request) (c : Completion) :
    (s.retire r c).staging.words = s.staging.words := by
  simp

@[simp] theorem State.finishActive_words (s : State) (a : Active) (r : Result)
    (m : Option (Nat × Nat)) : (s.finishActive a r m).staging.words = s.staging.words :=
  s.retire_words a.req (a.completion r m s.refresh.retentionLost)

@[simp] theorem State.retireQueued_words (s : State) (l : List Queued) :
    (s.retireQueued l).staging.words = s.staging.words := by
  obtain ⟨owner, e, _⟩ := s.retireQueued_spec l
  rw [e]

@[simp] theorem State.abortAll_words (s : State) : s.abortAll.staging.words = s.staging.words := by
  have hactive : ∀ u : State, u.abortActive.staging.words = u.staging.words := by
    intro u
    unfold State.abortActive
    dsimp only
    (repeat' split) <;> simp
  simp [State.abortAll, hactive]

@[simp] theorem State.finishIfLast_words (s : State) (a : Active) :
    (s.finishIfLast a).staging.words = s.staging.words := by
  rcases s.finishIfLast_cases a with ⟨_, e⟩ | ⟨_, _, ⟨_, e⟩ | ⟨_, _, e⟩ | ⟨_, _, e⟩⟩ <;> rw [e]
  all_goals simp

/-- A record's completion writes a run of words into the buffer, or none. -/
theorem State.completeForRecord_words (s : State) (x : Burst) :
    ∃ a vs, (s.completeForRecord x).staging.words = s.staging.words.writeAll a vs := by
  cases ha : s.pool.active with
  | none => exact ⟨0, [], by simp [State.completeForRecord, ha, Memory.writeAll]⟩
  | some a =>
    rw [s.completeForRecord_some x a ha]
    simp only [State.finishIfLast_words, State.segmentEnd_frame]
    unfold State.storeRequested
    split
    · exact ⟨_, _, rfl⟩
    · exact ⟨0, [], rfl⟩

@[simp] theorem State.accept_words (s : State) (r : Request) :
    (s.accept r).staging.words = s.staging.words := by
  simp [State.accept]

/-- Losing the contents leaves no word in the array's memory. -/
theorem State.softResetArray_words (s : State) :
    s.softResetArray.array.words = s.array.words ∨ s.softResetArray.array.words = [] := by
  unfold State.softResetArray
  split
  · exact Or.inl rfl
  · exact Or.inr rfl
  · exact Or.inl rfl
  · exact Or.inl rfl
  · (repeat' split) <;> exact Or.inl rfl
  · (repeat' split) <;> exact Or.inl rfl
  · exact Or.inl rfl

theorem State.softResetEffect_memoriesCanonical {s : State} (h : s.memoriesCanonical) :
    s.softResetEffect.memoriesCanonical := by
  refine ⟨by simpa [State.softResetEffect, State.emptyHostSide] using h.1, ?_⟩
  rcases s.emptyHostSide.softResetArray_words with e | e <;> unfold State.softResetEffect <;> rw [e]
  · exact h.2
  · rfl

theorem State.completeForRecord_memoriesCanonical {s : State} (h : s.memoriesCanonical) (x : Burst) :
    (s.completeForRecord x).memoriesCanonical := by
  obtain ⟨a, vs, e⟩ := s.completeForRecord_words x
  refine ⟨?_, by simpa using h.2⟩
  rw [e]
  exact Memory.wf_writeAll vs _ a h.1

/-- Every command keeps both memories canonical: a store keeps the order, and a loss empties one. -/
theorem exec_keeps_memoriesCanonical {c : Instr} {s t : State} (h : exec c s = .next t)
    (hs : s.memoriesCanonical) : t.memoriesCanonical := by
  by_cases hc : .staging ∉ partsOf c ∧ .array ∉ partsOf c
  case pos =>
    obtain ⟨_, _, hstaging, _, _, _, _, _, _, _, harray, _⟩ := exec_keepsBut h
    rwa [State.memoriesCanonical, hstaging hc.1, harray hc.2]
  cases c <;> simp only [exec] at h
  case hardwareReset =>
    injection h with h
    subst h
    exact ⟨rfl, rfl⟩
  case post =>
    refine State.take_keeps (P := State.memoriesCanonical) h hs ?_
    split
    · simpa [State.memoriesCanonical, State.accept] using hs
    · exact hs
  case dataPortWrite v =>
    refine State.take_keeps (P := State.memoriesCanonical) h hs ?_
    split
    · exact hs
    · exact ⟨Memory.wf_write _ _ v hs.1, hs.2⟩
  case abort =>
    refine State.command_keeps (P := State.memoriesCanonical) h hs ?_ fun _ => ?_
    · rintro x _ hx ⟨_, _, rfl⟩
      exact hx
    · simpa [State.memoriesCanonical] using hs
  case softReset =>
    refine State.take_keeps (P := State.memoriesCanonical) h hs ?_
    split
    · exact hs
    · exact State.softResetEffect_memoriesCanonical (by exact hs)
  case softResetTakesEffect =>
    refine State.take_keeps (P := State.memoriesCanonical) h hs ?_
    split
    · exact State.softResetEffect_memoriesCanonical hs
    · exact hs
  case refreshPeriodExpiry =>
    refine State.takeAt_keeps (P := State.memoriesCanonical) h hs fun n _ => ?_
    refine ⟨by simpa using hs.1, ?_⟩
    simp only [State.urgentCause_frame]
    unfold State.countPeriod
    split
    · exact hs.2
    · rfl
  case readBurstCompletion =>
    refine State.takeAt_keeps (P := State.memoriesCanonical) h hs fun n _ => ?_
    split
    · exact State.completeForRecord_memoriesCanonical (by exact hs) _
    · exact hs
  case writeBurstCompletion =>
    refine State.takeAt_keeps (P := State.memoriesCanonical) h hs fun n _ => ?_
    split
    next x rest _ =>
      have hlands : (State.writeLands { s.atAC n with sched.inFlight := rest } x n).memoriesCanonical :=
        ⟨hs.1, Memory.wf_writeAll x.data _ _ hs.2⟩
      unfold State.completeWrite
      split
      · exact State.completeForRecord_memoriesCanonical hlands x
      · simpa [State.memoriesCanonical] using hlands
      · exact hlands
    next => exact hs
  all_goals simp [partsOf] at hc

/-- Settles O55: every command keeps both memories canonical. -/
theorem memoriesStayCanonicalAtEveryStep : Obligations.MemoriesStayCanonicalAtEveryStep := by
  intro s t h hs
  exact step_keeps h hs (fun _ _ hx => hx) (fun _ _ hx => hx) (fun _ _ hx => hx)
    fun _ _ _ => exec_keeps_memoriesCanonical

end Sys2Proof.Machine

/-! The job on the path, and the Capture Engine: outside the grants and a chunk's bursts a job can only
end or be a procedure's; and the Capture Engine stays within the bounds of chapter 7. -/

namespace Sys2Proof.Machine

/-! ### The job on the path -/

/-- From `s` to `t` the job on the path has stayed, has ended, or is a procedure's. -/
def State.jobStands (s t : State) : Prop :=
  t.sched.job = s.sched.job ∨ t.sched.job = none ∨ t.sched.job = some .procedure

theorem State.jobStands_of_eq {s t : State} (h : t.sched.job = s.sched.job) : s.jobStands t :=
  Or.inl h

theorem State.jobStands_trans {s t u : State} (h1 : s.jobStands t) (h2 : t.jobStands u) :
    s.jobStands u := by
  rcases h2 with h | h | h
  · rcases h1 with e | e | e <;> rw [e] at h
    · exact Or.inl h
    · exact Or.inr (Or.inl h)
    · exact Or.inr (Or.inr h)
  · exact Or.inr (Or.inl h)
  · exact Or.inr (Or.inr h)

section
variable (s : State)

theorem State.abandonDoze_jobStands : s.jobStands s.abandonDoze := by
  unfold State.jobStands State.abandonDoze
  dsimp only
  split
  · exact Or.inr (Or.inl rfl)
  · exact Or.inl rfl

theorem State.wakeCause_jobStands : s.jobStands s.wakeCause := by
  rcases s.wakeCause_cases with ⟨_, _, e⟩ | ⟨_, _, e⟩ | e <;> rw [e]
  · exact Or.inr (Or.inr rfl)
  · exact s.abandonDoze_jobStands
  · exact Or.inl rfl

theorem State.demandCause_jobStands : s.jobStands s.demandCause := by
  unfold State.demandCause
  split
  · exact s.wakeCause_jobStands
  · exact Or.inl rfl

theorem State.urgentCause_jobStands : s.jobStands s.urgentCause := by
  unfold State.urgentCause
  refine State.jobStands_trans (t := if s.urgentClaim then s.wakeCause else s) ?_
    (State.jobStands_of_eq (by simp))
  split
  · exact s.wakeCause_jobStands
  · exact Or.inl rfl

theorem State.askForArray_jobStands (d : Drain) : s.jobStands (s.askForArray d) := by
  unfold State.askForArray
  dsimp only
  split <;> exact s.wakeCause_jobStands

theorem State.proceed_jobStands : s.jobStands s.proceed := by
  have h1 : s.jobStands s.lookAtRefresh := State.jobStands_of_eq (by simp)
  have h2 : ∀ u : State, u.jobStands u.endSetModeIfNothingToLoad := by
    intro u
    unfold State.endSetModeIfNothingToLoad
    split
    · exact Or.inr (Or.inl rfl)
    · exact Or.inl rfl
  have h3 : ∀ u : State, u.jobStands u.endRestore := by
    intro u
    unfold State.endRestore
    split
    · split
      · exact Or.inr (Or.inl rfl)
      · exact Or.inl rfl
    · exact Or.inl rfl
  exact State.jobStands_trans (State.jobStands_trans h1 (h2 _)) (h3 _)

theorem State.endHeldBurst_jobStands : s.jobStands s.endHeldBurst := by
  rcases s.endHeldBurst_spec with e | ⟨_, _, e⟩ <;> rw [e]
  · exact Or.inl rfl
  · exact Or.inr (Or.inl rfl)

theorem State.afterSettle_jobStands : s.jobStands s.afterSettle := by
  unfold State.afterSettle
  split
  · unfold State.loadsSettled
    split
    · split
      · exact Or.inl rfl
      · exact Or.inr (Or.inl rfl)
    · exact Or.inl rfl
  · exact Or.inl rfl
  · exact State.jobStands_of_eq (by simp)
  · unfold State.endAlignment
    dsimp only
    split <;> exact Or.inr (Or.inl rfl)
  · exact Or.inr (Or.inl rfl)
  · exact s.proceed_jobStands

theorem State.abortActive_jobStands : s.jobStands s.abortActive := by
  have hend : s.sched.endRecordJob.job = s.sched.job ∨ s.sched.endRecordJob.job = none := by
    unfold Sched.endRecordJob
    dsimp only
    split
    · exact Or.inr rfl
    · exact Or.inl rfl
  have hstands : ∀ t : State, t.sched = s.sched.endRecordJob → s.jobStands t := by
    intro t ht
    rw [State.jobStands, ht]
    exact hend.imp_right Or.inl
  unfold State.abortActive
  split
  · exact Or.inl rfl
  · dsimp only
    split
    · exact hstands _ rfl
    · exact hstands _ (by simp)

theorem State.softResetArray_jobStands : s.jobStands s.softResetArray := by
  unfold State.softResetArray
  split
  · exact Or.inl rfl
  · exact Or.inr (Or.inl rfl)
  · exact Or.inl rfl
  · exact Or.inl rfl
  · (repeat' split)
    · exact s.abandonDoze_jobStands
    · exact Or.inl rfl
    · exact Or.inl rfl
  · (repeat' split)
    · exact s.abandonDoze_jobStands
    · exact Or.inl rfl
    · exact Or.inl rfl
  · exact Or.inl rfl

/-- After a SOFT_RESET command the path is free or a procedure's (R101). -/
theorem State.halt_job : s.halt.sched.job = none ∨ s.halt.sched.job = some .procedure := by
  unfold State.halt
  dsimp only
  split
  · exact Or.inr rfl
  · exact Or.inl rfl

theorem State.afterRenew_jobStands : s.jobStands s.afterRenew := by
  unfold State.afterRenew
  (repeat' split) <;> first | exact Or.inl rfl | exact Or.inr (Or.inl rfl)

theorem State.afterWake_job : s.afterWake.sched.job = s.sched.job := by
  unfold State.afterWake
  (repeat' split) <;> rfl

theorem State.countPeriod_job : s.countPeriod.sched.job = s.sched.job := by
  unfold State.countPeriod
  split <;> rfl

theorem State.closeAll_jobStands : s.jobStands s.closeAll := by
  unfold State.closeAll
  dsimp only
  split
  · exact State.jobStands_trans (State.jobStands_of_eq rfl) (State.abandonDoze_jobStands _)
  · exact Or.inl rfl

theorem State.captureStop_jobStands : s.jobStands s.captureStop := by
  unfold State.captureStop
  dsimp only
  split
  · exact Or.inl rfl
  · exact State.jobStands_trans (State.jobStands_of_eq rfl) (State.demandCause_jobStands _)

theorem State.offer_jobStands (w : Word) : s.jobStands (s.offer w) := by
  unfold State.offer
  split
  · exact State.jobStands_trans (State.jobStands_of_eq rfl) (State.demandCause_jobStands _)
  · exact Or.inl rfl

theorem State.lockRestartStep_job : s.lockRestartStep.sched.job = s.sched.job := by
  unfold State.lockRestartStep
  dsimp only
  split <;> rfl

end

/-- The grants that give the path to a job of another kind than a procedure, and a WRITE_BURST, which
moves a chunk on. -/
def changesJob : Instr → Bool
  | .selection | .recordBurstGrant | .shutClaimGrant | .captureChunkGrant | .urgentRefreshGrant
  | .opportunisticRefreshGrant | .writeBurst => true
  | _ => false

/-- Every other command leaves the job, ends it, or makes it a procedure's. -/
theorem exec_jobStands {c : Instr} {s t : State} (h : exec c s = .next t)
    (hc : changesJob c = false) : s.jobStands t := by
  by_cases hp : .sched ∈ partsOf c
  case neg =>
    obtain ⟨_, _, _, _, hsched, _⟩ := exec_keepsBut h
    exact State.jobStands_of_eq (by rw [hsched hp])
  have refl : s.jobStands s := Or.inl rfl
  have answered : ∀ x y : State, s.jobStands x → (∃ c z, y = x.answer c z) → s.jobStands y := by
    rintro x _ hx ⟨_, _, rfl⟩
    exact hx
  cases c <;> simp only [exec] at h
  case selection | recordBurstGrant | shutClaimGrant | captureChunkGrant | urgentRefreshGrant |
      opportunisticRefreshGrant | writeBurst => cases hc
  case hardwareReset =>
    injection h with h
    subst h
    exact Or.inr (Or.inl rfl)
  case post =>
    refine State.take_keeps h refl ?_
    split
    · exact State.jobStands_trans (State.jobStands_of_eq rfl) (State.wakeCause_jobStands _)
    · exact refl
  case ageLimitWrite =>
    refine State.take_keeps h refl ?_
    (repeat' split) <;> exact refl
  case refreshSettingWrite =>
    refine State.take_keeps h refl ?_
    split
    · split
      · exact State.jobStands_trans (State.jobStands_of_eq rfl) (State.urgentCause_jobStands _)
      · exact refl
    · (repeat' split) <;> exact refl
  case consumerWrite =>
    refine State.take_keeps h refl ?_
    split
    · exact State.jobStands_trans (State.jobStands_of_eq rfl) (State.demandCause_jobStands _)
    · exact refl
  case captureByteArrival =>
    refine State.take_keeps h refl ?_
    split
    · split
      · exact refl
      · exact State.jobStands_trans (State.jobStands_of_eq rfl) (State.offer_jobStands _ _)
    · exact refl
  case startArray => exact State.command_keeps h refl answered fun _ => Or.inr (Or.inr rfl)
  case setMode =>
    exact State.command_keeps h refl answered fun _ =>
      State.askForArray_jobStands { s with setup := s.setup.loadWorking } .setMode
  case align => exact State.command_keeps h refl answered fun _ => s.askForArray_jobStands .align
  case retainEnter =>
    exact State.command_keeps h refl answered fun _ => s.askForArray_jobStands .retain
  case retainExit =>
    refine State.command_keeps h refl answered fun _ => ?_
    split
    · exact Or.inr (Or.inr rfl)
    · exact refl
  case closeAll => exact State.command_keeps h refl answered fun _ => s.closeAll_jobStands
  case abort =>
    exact State.command_keeps h refl answered fun _ => State.jobStands_trans
      (State.jobStands_of_eq (by simp)) (State.abortActive_jobStands _)
  case captureStop => exact State.command_keeps h refl answered fun _ => s.captureStop_jobStands
  case softReset =>
    refine State.take_keeps h refl ?_
    have hcommand : s.jobStands s.softResetCommand := Or.inr s.halt_job
    split
    · exact hcommand
    · exact State.jobStands_trans hcommand (State.softResetArray_jobStands _)
  case softResetTakesEffect =>
    refine State.take_keeps h refl ?_
    split
    · exact State.softResetArray_jobStands _
    · exact refl
  case refreshPeriodExpiry =>
    refine State.takeAt_keeps h refl fun n _ => ?_
    exact State.jobStands_trans (t := (s.atAC n).nextRefreshPeriod.countPeriod)
      (State.jobStands_of_eq (State.countPeriod_job _)) (State.urgentCause_jobStands _)
  case wakeEnd =>
    exact State.takeAt_keeps h refl fun n _ => Or.inr (Or.inl (State.afterWake_job _))
  case openDelayExpiry =>
    exact State.takeAt_keeps h refl fun n _ => State.jobStands_trans (State.jobStands_of_eq rfl)
      (State.endHeldBurst_jobStands _)
  case closeTimeExpiry | modeHoldExpiry | renewCompletion =>
    exact State.takeAt_keeps h refl fun n _ => State.jobStands_trans (State.jobStands_of_eq rfl)
      (State.proceed_jobStands _)
  case modeSettleExpiry =>
    exact State.takeAt_keeps h refl fun n _ => State.jobStands_trans (State.jobStands_of_eq rfl)
      (State.afterSettle_jobStands _)
  case lockPhaseExpiry =>
    refine State.takeAt_keeps h refl fun n _ => ?_
    dsimp only
    split
    · exact refl
    · exact Or.inr (Or.inl rfl)
  case retainMinExpiry =>
    refine State.takeAt_keeps h refl fun n _ => ?_
    dsimp only
    split
    · exact Or.inr (Or.inr rfl)
    · exact refl
  case retainExitTimeExpiry =>
    refine State.takeAt_keeps h refl fun n _ => ?_
    split
    · exact State.jobStands_of_eq (State.lockRestartStep_job _)
    · exact Or.inr (Or.inl rfl)
  case readBurstCompletion | writeBurstCompletion =>
    refine State.takeAt_keeps h refl fun n _ => ?_
    split
    · exact State.jobStands_of_eq (by simp)
    · exact refl
  case drainGrant =>
    refine State.take_keeps h refl ?_
    split
    · exact State.jobStands_trans (Or.inr (Or.inr rfl)) (State.proceed_jobStands _)
    · exact refl
  case restoreGrant =>
    refine State.take_keeps h refl ?_
    split
    · exact State.jobStands_trans (Or.inr (Or.inr rfl)) (State.proceed_jobStands _)
    · exact refl
  case rowShut =>
    refine State.takeAt_keeps h refl fun n _ => ?_
    split
    · unfold State.jobStands State.shutRow Sched.endShutClaim
      dsimp only
      split
      · exact Or.inr (Or.inl rfl)
      · exact Or.inl rfl
    · exact refl
  case readBurst =>
    refine State.takeAt_keeps h refl fun n _ => ?_
    split
    · exact Or.inr (Or.inl rfl)
    · exact refl
  case renew =>
    exact State.takeAt_keeps h refl fun n _ => State.jobStands_trans (State.jobStands_of_eq rfl)
      (State.afterRenew_jobStands _)
  case napIn | retainIn => exact State.takeAt_keeps h refl fun n _ => Or.inr (Or.inl rfl)
  all_goals simp [partsOf] at hp

/-! ### The Capture Engine by itself -/

/-- The bounds of chapter 7 on the Capture Engine, apart from what a chunk on the path finds. -/
def Capture.inBounds (c : Capture) : Prop :=
  c.fifo.length ≤ 256 ∧ (c.state = .idle → c.fifo = []) ∧
  (c.state ≠ .running → c.assembler = none) ∧
  (c.state = .draining → c.fifo ≠ [] ∧ c.fifo.length % 32 = 0) ∧
  c.isOffset c.producer ∧ c.isOffset c.consumer ∧ c.drops ≤ 65535 ∧ c.pad ≤ 31 ∧
  (c.state ≠ .idle → 64 ≤ c.ringWords)

/-- A chunk on the path finds its words and room in the ring, and no SOFT_RESET is pending (R125,
R137). -/
def State.chunkFinds (s : State) : Prop :=
  ∀ j, s.sched.job = some (.chunk j) →
    j ≤ 3 ∧ s.capture.state ≠ .idle ∧ 32 ≤ s.capture.fifo.length ∧ s.capture.hasRoom = true ∧
      s.bus.softPending = false

theorem State.captureInBounds_iff (s : State) :
    s.captureInBounds ↔ s.capture.inBounds ∧ s.chunkFinds := by
  simp only [State.captureInBounds, Capture.inBounds, State.chunkFinds, and_assoc]

theorem Capture.isOffset_zero (c : Capture) : c.isOffset 0 := ⟨rfl, Or.inr rfl⟩

/-- An offset moved by a chunk round the ring is an offset (R127). -/
theorem Capture.isOffset_advance {c : Capture} {x : Nat} (hx : c.isOffset x)
    (hr : 64 ≤ c.ringWords) : c.isOffset ((x + 32) % c.ringWords) := by
  refine ⟨?_, Or.inl (Nat.mod_lt _ (by omega))⟩
  have hx := hx.1
  unfold Capture.ringWords
  rw [Nat.mod_mul_left_mod]
  omega

/-- The way round the ring from one offset to another. -/
theorem ring_distance {a b r : Nat} (ha : a < r) (hb : b < r) :
    (a + r - b) % r = if b ≤ a then a - b else a + r - b := by
  split
  next h => rw [show a + r - b = (a - b) + r by omega, Nat.add_mod_right, Nat.mod_eq_of_lt (by omega)]
  next h => exact Nat.mod_eq_of_lt (by omega)

/-- A consumer write that passes leaves an offset, and a fill no larger than before (R123, R129). -/
theorem Capture.consumerPasses_moves {c : Capture} {w : Nat} (hw : c.consumerPasses w = true)
    (hp : c.isOffset c.producer) (hc : c.isOffset c.consumer) :
    c.isOffset w ∧ (64 ≤ c.ringWords → { c with consumer := w }.fill ≤ c.fill) := by
  have hpass : w = c.producer ∨ (w % 32 = 0 ∧ w < c.ringWords ∧
      (w + c.ringWords - c.consumer) % c.ringWords ≤ c.fill) := of_decide_eq_true hw
  have hoffset : c.isOffset w := by
    rcases hpass with rfl | ⟨h1, h2, _⟩
    · exact hp
    · exact ⟨h1, Or.inl h2⟩
  refine ⟨hoffset, fun hr => ?_⟩
  have below : ∀ x, c.isOffset x → x < c.ringWords := by
    rintro x ⟨_, h | rfl⟩
    · exact h
    · omega
  have e1 : { c with consumer := w }.fill =
      if w ≤ c.producer then c.producer - w else c.producer + c.ringWords - w :=
    ring_distance (below _ hp) (below _ hoffset)
  have e2 : c.fill = if c.consumer ≤ c.producer then c.producer - c.consumer
      else c.producer + c.ringWords - c.consumer := ring_distance (below _ hp) (below _ hc)
  have e3 := ring_distance (below _ hoffset) (below _ hc)
  have := below _ hp
  have := below _ hc
  have := below _ hoffset
  rw [e1]
  rcases hpass with rfl | ⟨_, _, h⟩
  · rw [if_pos le_rfl]
    omega
  · rw [e3, e2] at h
    rw [e2]
    (repeat' split at h) <;> (repeat' split) <;> omega

theorem Capture.hasRoom_of_fill_le {c d : Capture} (hr : d.ringWords = c.ringWords)
    (hf : d.fill ≤ c.fill) (h : c.hasRoom = true) : d.hasRoom = true := by
  simp only [Capture.hasRoom, decide_eq_true_eq] at h ⊢
  omega

/-- The padding fills a level up to a multiple of 32 (R131). -/
theorem padding_spec (n : Nat) : padding n ≤ 31 ∧ (n + padding n) % 32 = 0 := by
  unfold padding
  omega

/-! ### A chunk on the path -/

/-- A chunk on the path goes on finding what it found when the engine has the words and the room still,
and no other work has come by its job. -/
theorem State.chunkFinds_of_jobStands {s t : State} (hs : s.chunkFinds) (hj : s.jobStands t)
    (hstate : s.capture.state ≠ .idle → t.capture.state ≠ .idle)
    (hfifo : s.capture.fifo.length ≤ t.capture.fifo.length)
    (hroom : s.capture.hasRoom = true → t.capture.hasRoom = true)
    (hsoft : t.bus.softPending = s.bus.softPending) : t.chunkFinds := by
  intro j hj'
  rcases hj with e | e | e <;> rw [e] at hj'
  · obtain ⟨h1, h2, h3, h4, h5⟩ := hs j hj'
    exact ⟨h1, hstate h2, h3.trans hfifo, hroom h4, hsoft.trans h5⟩
  · cases hj'
  · cases hj'

theorem State.chunkFinds_of_noChunk {s : State} (h : ∀ j, s.sched.job ≠ some (.chunk j)) :
    s.chunkFinds := fun j hj => absurd hj (h j)


/-! ### What the commands do to the Capture Engine -/

theorem Capture.inBounds_idle {c : Capture} (hi : c.state = .idle) (hf : c.fifo = [])
    (ha : c.assembler = none) (hp : c.producer = 0) (hc : c.consumer = 0)
    (hd : c.drops ≤ 65535) (hn : c.pad ≤ 31) : c.inBounds := by
  refine ⟨by simp [hf], fun _ => hf, fun _ => ha, fun h => ?_, ?_, ?_, hd, hn, fun h => absurd hi h⟩
  · rw [hi] at h
    cases h
  · rw [hp]
    exact c.isOffset_zero
  · rw [hc]
    exact c.isOffset_zero

theorem State.softResetEffect_captureInBounds {s : State} (h : s.capture.inBounds)
    (hj : ∀ j, s.sched.job ≠ some (.chunk j)) : s.softResetEffect.captureInBounds := by
  obtain ⟨_, _, _, _, _, _, hd, hn, _⟩ := h
  rw [State.captureInBounds_iff]
  constructor
  · rw [show s.softResetEffect.capture = s.emptyHostSide.capture by simp [State.softResetEffect]]
    exact Capture.inBounds_idle rfl rfl rfl rfl rfl hd hn
  · refine State.chunkFinds_of_noChunk fun j hj' => ?_
    rcases s.emptyHostSide.softResetArray_jobStands with e | e | e <;>
      rw [show s.softResetEffect = s.emptyHostSide.softResetArray from rfl, e] at hj'
    · exact hj j hj'
    · cases hj'
    · cases hj'

theorem State.captureStop_captureInBounds {s : State} (h : s.captureInBounds)
    (hr : s.capture.state = .running) : s.captureStop.captureInBounds := by
  obtain ⟨⟨h1, h2, h3, h4, h5, h6, h7, h8, h9⟩, hchunk⟩ := s.captureInBounds_iff.1 h
  obtain ⟨hpad, hmod⟩ := padding_spec s.capture.fifo.length
  have hring := h9 (by rw [hr]; nofun)
  rw [State.captureInBounds_iff]
  have hjob := s.captureStop_jobStands
  by_cases he : s.capture.fifo = []
  · have hstop : s.captureStop.capture =
        { s.capture with state := .idle, assembler := none, fifo := [], pad := 0 } := by
      simp [State.captureStop, he, padding]
    refine ⟨?_, fun j hj => ?_⟩
    · rw [hstop]
      exact ⟨by simp, fun _ => rfl, fun _ => rfl, nofun, h5, h6, h7, by simp, fun h => absurd rfl h⟩
    · rcases hjob with e | e | e <;> rw [e] at hj
      · have := (hchunk j hj).2.2.1
        simp [he] at this
      · cases hj
      · cases hj
  · have hstop : s.captureStop.capture = { s.capture with
        state := .draining
        assembler := none
        fifo := s.capture.fifo ++ List.replicate (padding s.capture.fifo.length) 0
        pad := padding s.capture.fifo.length } := by
      simp [State.captureStop, he]
    refine ⟨?_, State.chunkFinds_of_jobStands hchunk hjob ?_ ?_ ?_ (by simp)⟩
    · rw [hstop]
      refine ⟨?_, nofun, fun _ => rfl, fun _ => ⟨by simp [he], by simpa using hmod⟩, h5, h6, h7, hpad,
        fun _ => hring⟩
      rw [List.length_append, List.length_replicate]
      unfold padding
      omega
    · rw [hstop]
      nofun
    · simp [hstop]
    · rw [hstop]
      exact id

theorem State.offer_captureInBounds {s : State} (h : s.captureInBounds)
    (hr : s.capture.state = .running) (w : Word) : (s.offer w).captureInBounds := by
  obtain ⟨⟨h1, h2, h3, h4, h5, h6, h7, h8, h9⟩, hchunk⟩ := s.captureInBounds_iff.1 h
  have hring := h9 (by rw [hr]; nofun)
  rw [State.captureInBounds_iff]
  have hjob := s.offer_jobStands w
  by_cases hl : s.capture.fifo.length < 256
  · have hoffer : (s.offer w).capture = { s.capture with fifo := s.capture.fifo ++ [w] } := by
      simp [State.offer, hl]
    refine ⟨?_, State.chunkFinds_of_jobStands hchunk hjob ?_ ?_ ?_ (by simp)⟩
    · rw [hoffer]
      refine ⟨by simpa using hl, ?_, h3, ?_, h5, h6, h7, h8, fun _ => hring⟩
      · rw [hr]
        nofun
      · rw [hr]
        nofun
    · rw [hoffer]
      exact id
    · simp [hoffer]
    · rw [hoffer]
      exact id
  · have hoffer : (s.offer w).capture =
        { s.capture with drops := min 65535 (s.capture.drops + 1) } := by
      simp [State.offer, hl]
    refine ⟨?_, State.chunkFinds_of_jobStands hchunk hjob ?_ ?_ ?_ (by simp)⟩
    · rw [hoffer]
      exact ⟨h1, h2, h3, h4, h5, h6, Nat.min_le_left _ _, h8, h9⟩
    all_goals rw [hoffer]
    · exact id
    · exact id

/-- The Capture Engine after the fourth burst of a chunk (R127, R132). -/
theorem State.chunkAdvance_capture (s : State) : s.chunkAdvance.capture = { s.capture with
    fifo := s.capture.fifo.drop 32
    producer := (s.capture.producer + 32) % s.capture.ringWords
    state := if s.capture.state = .draining ∧ s.capture.fifo.length ≤ 32 then .idle
      else s.capture.state } := by
  have hmark : ∀ u : State, u.markIfReached.capture = u.capture := by simp
  unfold State.chunkAdvance State.endRunIfEmpty
  simp only [hmark, List.isEmpty_iff, List.drop_eq_nil_iff, Bool.and_eq_true, decide_eq_true_eq]
  split
  · simp
  · simp

theorem State.chunkAdvance_captureInBounds {s : State} (h : s.capture.inBounds)
    (hstate : s.capture.state ≠ .idle) (hfifo : 32 ≤ s.capture.fifo.length) :
    s.chunkAdvance.captureInBounds := by
  obtain ⟨h1, h2, h3, h4, h5, h6, h7, h8, h9⟩ := h
  rw [State.captureInBounds_iff, s.chunkAdvance_capture]
  refine ⟨⟨?_, ?_, ?_, ?_, Capture.isOffset_advance h5 (h9 hstate), h6, h7, h8, ?_⟩,
    State.chunkFinds_of_noChunk fun j hj => ?_⟩
  · simp only [List.length_drop]
    omega
  · intro hi
    dsimp only at hi ⊢
    split at hi
    next hd => exact List.drop_eq_nil_iff.2 hd.2
    next => exact absurd hi hstate
  · intro hn
    dsimp only at hn ⊢
    split at hn
    next hd => exact h3 (by rw [hd.1]; nofun)
    next => exact h3 hn
  · intro hd
    dsimp only at hd ⊢
    split at hd
    next => cases hd
    next hn =>
      have hlong : 32 < s.capture.fifo.length := by
        by_contra hshort
        exact hn ⟨hd, by omega⟩
      have hm := (h4 hd).2
      rw [Ne, List.drop_eq_nil_iff, List.length_drop]
      omega
  · exact fun _ => h9 hstate
  · have hnone : s.chunkAdvance.sched.job = none := by simp [State.chunkAdvance]
    rw [hnone] at hj
    cases hj

/-! ### The pending bit of SOFT_RESET -/

@[simp] theorem Bus.plainWrite_softPending (u : Bus) (offset : BitVec 6) (v : Word) :
    (u.plainWrite offset v).softPending = u.softPending := by
  unfold Bus.plainWrite
  split <;> rfl

@[simp] theorem State.accept_softPending (s : State) (r : Request) :
    (s.accept r).bus.softPending = s.bus.softPending := by
  simp [State.accept]

/-- The pending bit is written by SOFT_RESET, its taking effect and a hardware reset alone (R191). -/
theorem exec_softPending {c : Instr} {s t : State} (h : exec c s = .next t)
    (hc : c ≠ .softReset ∧ c ≠ .softResetTakesEffect ∧ c ≠ .hardwareReset) :
    t.bus.softPending = s.bus.softPending := by
  by_cases hp : .bus ∈ partsOf c
  case neg =>
    obtain ⟨hbus, _⟩ := exec_keepsBut h
    rw [hbus hp]
  let P (x : State) := x.bus.softPending = s.bus.softPending
  have answered : ∀ x y : State, P x → (∃ c z, y = x.answer c z) → P y := by
    rintro x _ hx ⟨_, _, rfl⟩
    exact hx
  cases c <;> simp only [exec] at h
  case softReset => exact absurd rfl hc.1
  case softResetTakesEffect => exact absurd rfl hc.2.1
  case hardwareReset => exact absurd rfl hc.2.2
  case post | dataPortWrite | dataPortRead | dataPortPointerWrite | plainRegisterWrite =>
    refine State.take_keeps (P := P) h rfl ?_
    (repeat' split) <;> simp [P]
  case startArray | setMode | align | retainEnter | retainExit | closeAll | abort | clearRetention |
      captureStart | captureStop =>
    refine State.command_keeps (P := P) h rfl answered fun _ => ?_
    (repeat' split) <;> simp [P]
  all_goals simp [partsOf] at hp

/-! ### What every step keeps -/

/-- A command that leaves the Capture Engine and gives the path to no chunk keeps the bounds. -/
theorem State.captureInBounds_of_frame {s t : State} (h : s.captureInBounds)
    (hc : t.capture = s.capture) (hj : s.jobStands t)
    (hsoft : t.bus.softPending = s.bus.softPending) : t.captureInBounds := by
  rw [State.captureInBounds_iff] at h ⊢
  rw [hc]
  exact ⟨h.1, State.chunkFinds_of_jobStands h.2 hj (by rw [hc]; exact id) (by rw [hc])
    (by rw [hc]; exact id) hsoft⟩

/-- A grant of a job that is no chunk keeps the bounds. -/
theorem State.captureInBounds_of_job {s t : State} (h : s.captureInBounds)
    (hc : t.capture = s.capture) (hj : ∀ j, t.sched.job ≠ some (.chunk j)) : t.captureInBounds := by
  rw [State.captureInBounds_iff] at h ⊢
  rw [hc]
  exact ⟨h.1, State.chunkFinds_of_noChunk hj⟩

/-- A demand finds its words and room, and the arbiter is open with no SOFT_RESET pending (R101, R125). -/
theorem State.chunkFinds_of_demand {s : State} (hd : s.capture.demand = true)
    (ho : s.arbiterOpen = true) (p : Pool) :
    (State.grant { s with pool := p } (.chunk 0)).chunkFinds := by
  intro j hj
  cases hj
  simp only [Capture.demand, Bool.and_eq_true, decide_eq_true_eq] at hd
  simp only [State.arbiterOpen, Bool.and_eq_true, Bool.not_eq_true'] at ho
  exact ⟨Nat.zero_le 3, hd.1.1, hd.1.2, hd.2, ho.1.1.2⟩

theorem State.writeBlock_chunk {s : State} {j : Nat} (hj : s.sched.job = some (.chunk j))
    {x : Block} {data : List Word} {user : BurstUser} (h : s.writeBlock = some (x, data, user)) :
    x.first = 8 * j ∧ user = .chunk (decide (j = 3)) := by
  unfold State.writeBlock at h
  rw [hj] at h
  dsimp only at h
  split at h
  · cases h
    exact ⟨rfl, rfl⟩
  · cases h

theorem State.writeBlock_record {s : State} (hj : ∀ j, s.sched.job ≠ some (.chunk j))
    {x : Block} {data : List Word} {user : BurstUser} (h : s.writeBlock = some (x, data, user)) :
    user = .record := by
  unfold State.writeBlock at h
  split at h
  next j e => exact absurd e (hj j)
  next =>
    split at h
    · split at h
      · cases h
      · obtain ⟨d, _, e⟩ := Option.map_eq_some_iff.1 h
        cases e
        rfl
    · cases h

theorem State.dueWrite_writeBlock {s : State} {y : Block × List Word × BurstUser} {w : Nat}
    (h : s.dueWrite = some (y, w)) : s.writeBlock = some y := by
  unfold State.dueWrite at h
  split at h
  · cases h
    assumption
  · cases h

theorem State.writeBurst_captureInBounds {s : State} (h : s.captureInBounds) {x : Block}
    {data : List Word} {user : BurstUser} {w : Nat} (hd : s.dueWrite = some ((x, data, user), w))
    (n : Nat) : ((s.issueWrite x data user w n).afterWrite x user).captureInBounds := by
  have hb := State.dueWrite_writeBlock hd
  have h' := s.captureInBounds_iff.1 h
  by_cases hj : ∃ j, s.sched.job = some (.chunk j)
  · obtain ⟨j, hj⟩ := hj
    obtain ⟨hfirst, rfl⟩ := State.writeBlock_chunk hj hb
    obtain ⟨hle, hstate, hfifo, hroom, hsoft⟩ := h'.2 j hj
    by_cases h3 : j = 3
    · subst h3
      exact State.chunkAdvance_captureInBounds h'.1 hstate hfifo
    · have hmore : (s.issueWrite x data (.chunk (decide (j = 3))) w n).afterWrite x
          (.chunk (decide (j = 3))) = { s.issueWrite x data (.chunk (decide (j = 3))) w n with
            sched.job := some (.chunk (x.first / 8 + 1)) } := by
        simp [State.afterWrite, h3]
      rw [hmore, State.captureInBounds_iff]
      refine ⟨h'.1, fun i hi => ?_⟩
      cases hi
      exact ⟨by omega, hstate, hfifo, hroom, hsoft⟩
  · obtain rfl := State.writeBlock_record (fun j e => hj ⟨j, e⟩) hb
    exact State.captureInBounds_of_job h rfl nofun

/-- Every command keeps the Capture Engine within the bounds of chapter 7. -/
theorem exec_keeps_captureInBounds {c : Instr} {s t : State} (h : exec c s = .next t)
    (hs : s.captureInBounds) : t.captureInBounds := by
  by_cases hf : .capture ∉ partsOf c ∧ changesJob c = false ∧
      (c ≠ .softReset ∧ c ≠ .softResetTakesEffect ∧ c ≠ .hardwareReset)
  case pos =>
    obtain ⟨_, _, _, _, _, _, _, hcapture, _⟩ := exec_keepsBut h
    exact State.captureInBounds_of_frame hs (hcapture hf.1) (exec_jobStands h hf.2.1)
      (exec_softPending h hf.2.2)
  obtain ⟨⟨h1, h2, h3, h4, h5, h6, h7, h8, h9⟩, hchunk⟩ := s.captureInBounds_iff.1 hs
  have answered : ∀ x y : State, x.captureInBounds → (∃ c z, y = x.answer c z) →
      y.captureInBounds := by
    rintro x _ hx ⟨_, _, rfl⟩
    exact hx
  have idleJob : s.capture.state = .idle → ∀ j, s.sched.job ≠ some (.chunk j) :=
    fun hi j hj => (hchunk j hj).2.1 hi
  cases c <;> simp only [exec] at h
  case hardwareReset =>
    injection h with h
    subst h
    rw [State.captureInBounds_iff]
    exact ⟨Capture.inBounds_idle rfl rfl rfl rfl rfl (Nat.zero_le _) (Nat.zero_le _),
      State.chunkFinds_of_noChunk nofun⟩
  case ringDescriptorWrite v =>
    refine State.take_keeps (P := State.captureInBounds) h hs ?_
    split
    · split
      next hi =>
        rw [State.captureInBounds_iff]
        exact ⟨Capture.inBounds_idle hi (h2 hi) (h3 (by rw [hi]; nofun)) rfl rfl h7 h8,
          State.chunkFinds_of_noChunk (idleJob hi)⟩
      next => exact hs
    · split
      · split
        next hi =>
          rw [State.captureInBounds_iff]
          exact ⟨Capture.inBounds_idle hi (h2 hi) (h3 (by rw [hi]; nofun)) rfl rfl h7 h8,
            State.chunkFinds_of_noChunk (idleJob hi)⟩
        next => exact hs
      · (repeat' split) <;> exact hs
  case consumerWrite v =>
    refine State.take_keeps (P := State.captureInBounds) h hs ?_
    split
    next hw =>
      obtain ⟨hoffset, hfill⟩ := Capture.consumerPasses_moves hw h5 h6
      have hu : State.captureInBounds { s with capture.consumer := s.bus.consumerOffset v } := by
        rw [State.captureInBounds_iff]
        refine ⟨⟨h1, h2, h3, h4, h5, hoffset, h7, h8, h9⟩, fun j hj => ?_⟩
        obtain ⟨e1, e2, e3, e4, e5⟩ := hchunk j hj
        exact ⟨e1, e2, e3, Capture.hasRoom_of_fill_le (c := s.capture) rfl (hfill (h9 e2)) e4, e5⟩
      exact State.captureInBounds_of_frame hu (by simp) (State.demandCause_jobStands _) (by simp)
    next => exact hs
  case captureByteArrival b =>
    refine State.take_keeps (P := State.captureInBounds) h hs ?_
    have hassembler : ∀ o, s.capture.state = .running →
        State.captureInBounds { s with capture.assembler := o } := by
      intro o hr
      rw [State.captureInBounds_iff]
      exact ⟨⟨h1, h2, fun hn => absurd hr hn, h4, h5, h6, h7, h8, h9⟩, hchunk⟩
    split
    next hr =>
      split
      · exact hassembler _ hr
      · exact State.offer_captureInBounds (by exact hassembler _ hr) (by exact hr) _
    next => exact hs
  case captureStart =>
    refine State.command_keeps (P := State.captureInBounds) h hs answered fun ho => ?_
    have hvalid : s.capture.state = .idle ∧ 2 ≤ s.capture.size.toNat := by
      unfold State.captureStartOutcome at ho
      split at ho
      next hi =>
        split at ho
        next hv =>
          simp only [Capture.ringValid, decide_eq_true_eq] at hv
          exact ⟨hi.1, hv.2.1⟩
        next => cases ho
      next => cases ho
    rw [State.captureInBounds_iff]
    refine ⟨⟨by simp, fun _ => rfl, fun _ => rfl, nofun, Capture.isOffset_zero _,
      Capture.isOffset_zero _, by simp, by simp, fun _ => ?_⟩,
      State.chunkFinds_of_noChunk (idleJob hvalid.1)⟩
    show 64 ≤ s.capture.size.toNat * 32
    omega
  case captureStop =>
    refine State.command_keeps (P := State.captureInBounds) h hs answered fun ho => ?_
    refine State.captureStop_captureInBounds hs ?_
    by_contra hn
    simp [hn] at ho
  case softReset =>
    refine State.take_keeps (P := State.captureInBounds) h hs ?_
    have hjob : ∀ j, s.softResetCommand.sched.job ≠ some (.chunk j) := by
      intro j hj
      rcases s.halt_job with e | e <;> rw [show s.softResetCommand.sched = s.halt.sched from rfl, e] at hj
      · cases hj
      · cases hj
    split
    · exact State.captureInBounds_of_job hs rfl hjob
    · exact State.softResetEffect_captureInBounds (s.captureInBounds_iff.1 hs).1 hjob
  case softResetTakesEffect =>
    refine State.take_keeps (P := State.captureInBounds) h hs ?_
    split
    next hd =>
      refine State.softResetEffect_captureInBounds (s.captureInBounds_iff.1 hs).1 fun j hj => ?_
      simp only [State.resetDue, Bool.and_eq_true] at hd
      exact Bool.false_ne_true ((hchunk j hj).2.2.2.2.symm.trans hd.1)
    next => exact hs
  case captureChunkGrant =>
    refine State.take_keeps (P := State.captureInBounds) h hs ?_
    split
    next hg =>
      simp only [State.urgentChunkGrant, Capture.urgentDemand, Bool.and_eq_true] at hg
      exact (State.captureInBounds_iff _).2
        ⟨(s.captureInBounds_iff.1 hs).1, State.chunkFinds_of_demand hg.1.2.1 hg.1.1 _⟩
    next =>
      split
      next hg =>
        simp only [State.normalChunkGrant, Bool.and_eq_true] at hg
        exact (State.captureInBounds_iff _).2 ⟨(s.captureInBounds_iff.1 hs).1,
          State.chunkFinds_of_demand hg.1.1.1.1.1.2 hg.1.1.1.1.1.1 s.pool⟩
      next => exact hs
  case selection =>
    refine State.take_keeps (P := State.captureInBounds) h hs ?_
    split
    · unfold State.select
      split
      · refine State.captureInBounds_of_frame (s := State.grant _ .recordBurst) ?_ (by simp)
          (State.endHeldBurst_jobStands _) (by simp)
        exact State.captureInBounds_of_job hs rfl nofun
      · exact hs
    · exact hs
  case recordBurstGrant =>
    refine State.take_keeps (P := State.captureInBounds) h hs ?_
    split
    · refine State.captureInBounds_of_frame (s := State.grant _ .recordBurst) ?_ (by simp)
        (State.endHeldBurst_jobStands _) (by simp)
      exact State.captureInBounds_of_job hs rfl nofun
    · exact hs
  case shutClaimGrant | urgentRefreshGrant | opportunisticRefreshGrant =>
    refine State.take_keeps (P := State.captureInBounds) h hs ?_
    split
    · exact State.captureInBounds_of_job hs rfl nofun
    · exact hs
  case writeBurst =>
    refine State.takeAt_keeps (P := State.captureInBounds) h hs fun n _ => ?_
    split
    next hd => exact State.writeBurst_captureInBounds hs hd n
    next => exact hs
  all_goals simp [partsOf, changesJob] at hf

/-- Settles O56: every command keeps the bounds of chapter 7. -/
theorem captureStaysInBoundsAtEveryStep : Obligations.CaptureStaysInBoundsAtEveryStep := by
  intro s t h hs
  exact step_keeps h hs (fun _ _ hx => hx) (fun _ _ hx => hx) (fun _ _ hx => hx)
    fun _ _ _ => exec_keeps_captureInBounds

end Sys2Proof.Machine

/-! The Record Pool and the slots (R27, R30, R43, R86): which records hold which slots, and why every
command keeps at most 16 records of distinct tags and the slots with their records. -/

namespace Sys2Proof.Machine

/-! ### Records that hold slots -/

/-- The unfinished requests `u` and the tags `d` of the DONE records are at most 16, no two of one tag,
and a slot has the tag of the unfinished request that covers it as its owner. -/
def SlotsAgree (u : List Request) (d : List Byte) (owner : Vector (Option Byte) 32) : Prop :=
  u.length + d.length ≤ 16 ∧ (u.map (fun r => r.tag) ++ d).Nodup ∧
  ∀ (i : Nat) (h : i < 32) (tag : Byte),
    owner[i] = some tag ↔ ∃ r, r ∈ u ∧ r.tag = tag ∧ r.covers i

theorem SlotsAgree.perm {u v : List Request} {d : List Byte} {owner : Vector (Option Byte) 32}
    (h : SlotsAgree u d owner) (hp : v.Perm u) : SlotsAgree v d owner := by
  obtain ⟨hlen, hnodup, howner⟩ := h
  refine ⟨by rwa [hp.length_eq], ?_, fun i hi tag => ?_⟩
  · exact (((hp.map _).append_right d).nodup_iff).2 hnodup
  · simp only [hp.mem_iff]
    exact howner i hi tag

/-- A record that becomes DONE gives its slots back, and no other record has one of them (R45). -/
theorem SlotsAgree.finish {r : Request} {u : List Request} {d : List Byte} {b : Staging}
    (h : SlotsAgree (r :: u) d b.owner) :
    SlotsAgree u (d ++ [r.tag]) (b.setOwner r none).owner := by
  obtain ⟨hlen, hnodup, howner⟩ := h
  refine ⟨by simp at hlen ⊢; omega, ?_, fun i hi tag => ?_⟩
  · rw [← List.append_assoc]
    exact (List.perm_append_singleton r.tag _).nodup_iff.2 hnodup
  · obtain ⟨hcover, hother⟩ := b.setOwner_covers r none ⟨i, hi⟩
    change r.covers i → (b.setOwner r none).owner[i] = none at hcover
    change ¬ r.covers i → (b.setOwner r none).owner[i] = b.owner[i] at hother
    have alone : ∀ r', r' ∈ u → r'.tag ≠ r.tag := by
      intro r' hr' e
      rw [List.map_cons, List.cons_append, List.nodup_cons] at hnodup
      exact hnodup.1 (List.mem_append_left _ (e ▸ List.mem_map_of_mem hr'))
    by_cases hc : r.covers i
    · rw [hcover hc]
      refine ⟨nofun, ?_⟩
      rintro ⟨r', hr', rfl, hc'⟩
      have h1 := (howner i hi r'.tag).2 ⟨r', List.mem_cons_of_mem _ hr', rfl, hc'⟩
      have h2 := (howner i hi r.tag).2 ⟨r, List.mem_cons_self, rfl, hc⟩
      exact absurd (Option.some.inj (h1.symm.trans h2)) (alone r' hr')
    · rw [hother hc, howner i hi tag]
      constructor
      · rintro ⟨r', hr', ht, hc'⟩
        rcases List.mem_cons.1 hr' with rfl | hr'
        · exact absurd hc' hc
        · exact ⟨r', hr', ht, hc'⟩
      · rintro ⟨r', hr', ht, hc'⟩
        exact ⟨r', List.mem_cons_of_mem _ hr', ht, hc'⟩

/-- A new record of a new tag takes a span of HOST slots (R43). -/
theorem SlotsAgree.lend {r : Request} {u : List Request} {d : List Byte} {b : Staging}
    (h : SlotsAgree u d b.owner) (hroom : u.length + d.length < 16)
    (htag : r.tag ∉ u.map (fun r => r.tag) ++ d)
    (hfree : ∀ (i : Nat) (hi : i < 32), r.covers i → b.owner[i] = none) :
    SlotsAgree (r :: u) d (b.setOwner r (some r.tag)).owner := by
  obtain ⟨hlen, hnodup, howner⟩ := h
  refine ⟨by simp; omega, List.nodup_cons.2 ⟨htag, hnodup⟩, fun i hi tag => ?_⟩
  obtain ⟨hcover, hother⟩ := b.setOwner_covers r (some r.tag) ⟨i, hi⟩
  change r.covers i → (b.setOwner r (some r.tag)).owner[i] = some r.tag at hcover
  change ¬ r.covers i → (b.setOwner r (some r.tag)).owner[i] = b.owner[i] at hother
  by_cases hc : r.covers i
  · rw [hcover hc]
    constructor
    · rintro ⟨⟩
      exact ⟨r, List.mem_cons_self, rfl, hc⟩
    · rintro ⟨r', hr', ht, hc'⟩
      rcases List.mem_cons.1 hr' with rfl | hr'
      · rw [ht]
      · have := (howner i hi tag).2 ⟨r', hr', ht, hc'⟩
        rw [hfree i hi hc] at this
        cases this
  · rw [hother hc, howner i hi tag]
    constructor
    · rintro ⟨r', hr', ht, hc'⟩
      exact ⟨r', List.mem_cons_of_mem _ hr', ht, hc'⟩
    · rintro ⟨r', hr', ht, hc'⟩
      rcases List.mem_cons.1 hr' with rfl | hr'
      · exact absurd hc' hc
      · exact ⟨r', hr', ht, hc'⟩

/-- With no unfinished record every slot is a HOST slot. -/
theorem SlotsAgree.empty : SlotsAgree [] [] (Vector.replicate 32 none) := by
  refine ⟨by simp, by simp, fun i hi tag => ?_⟩
  simp

theorem SlotsAgree.dropDone {u : List Request} {x : Byte} {d : List Byte}
    {owner : Vector (Option Byte) 32} (h : SlotsAgree u (x :: d) owner) : SlotsAgree u d owner := by
  obtain ⟨hlen, hnodup, howner⟩ := h
  refine ⟨by simp at hlen; omega, ?_, howner⟩
  rw [List.nodup_middle] at hnodup
  exact (List.nodup_cons.1 hnodup).2

theorem State.poolAndSlotsAgree_iff (s : State) :
    s.poolAndSlotsAgree ↔ (∀ q, q ∈ s.pool.queued → q.age ≤ 15) ∧
      SlotsAgree s.pool.unfinished (s.pool.done.map fun d => d.tag) s.staging.owner := by
  have hlive : s.pool.live = s.pool.unfinished.length + (s.pool.done.map fun d => d.tag).length := by
    simp only [Pool.live_eq, Pool.unfinished, List.length_append, List.length_map]
    cases s.pool.active with
    | none => simp
    | some a => simp; omega
  have htags : s.pool.tags.Perm
      (s.pool.unfinished.map (fun r => r.tag) ++ s.pool.done.map fun d => d.tag) := by
    unfold Pool.tags Pool.unfinished
    refine List.Perm.append_right _ ?_
    simp only [List.map_append, List.map_map]
    refine List.perm_append_comm.trans (List.Perm.append ?_ (List.Perm.refl _))
    cases s.pool.active <;> simp
  unfold State.poolAndSlotsAgree SlotsAgree
  rw [hlive, htags.nodup_iff]
  tauto

/-! ### The records' ends -/

/-- The slots and the tags after one record after another has become DONE. -/
theorem State.retireQueued_slotsAgree (l : List Queued) : ∀ (s : State) (u : List Request),
    SlotsAgree (l.map (fun q => q.req) ++ u) (s.pool.done.map fun d => d.tag) s.staging.owner →
    SlotsAgree u ((s.retireQueued l).pool.done.map fun d => d.tag)
      (s.retireQueued l).staging.owner := by
  induction l with
  | nil => exact fun s u h => h
  | cons q l ih =>
    intro s u h
    refine ih (s.retire q.req (q.abortedCompletion s.refresh.retentionLost)) u ?_
    simpa [Queued.abortedCompletion] using SlotsAgree.finish h

/-- The ACTIVE record becomes DONE: with the record out of the unfinished ones the rest agrees. -/
theorem State.finishActive_slotsAgree {s : State} {a : Active} {u : List Request}
    (h : SlotsAgree (a.req :: u) (s.pool.done.map fun d => d.tag) s.staging.owner) (r : Result)
    (m : Option (Nat × Nat)) :
    SlotsAgree u ((s.finishActive a r m).pool.done.map fun d => d.tag)
      (s.finishActive a r m).staging.owner := by
  simpa [State.finishActive, State.retire, Active.completion] using SlotsAgree.finish h

theorem Pool.unfinished_none {p : Pool} (h : p.active = none) :
    p.unfinished = p.queued.map fun q => q.req := by
  simp [Pool.unfinished, h]

/-- Finishing the ACTIVE record keeps pool and slots in agreement. -/
theorem State.finishActive_agrees {s : State} {a : Active}
    (hs : s.poolAndSlotsAgree) (ha : s.pool.active.map (fun a => a.req) = some a.req) (r : Result)
    (m : Option (Nat × Nat)) : (s.finishActive a r m).poolAndSlotsAgree := by
  rw [State.poolAndSlotsAgree_iff] at hs ⊢
  refine ⟨hs.1, ?_⟩
  have hu : s.pool.unfinished = a.req :: s.pool.queued.map fun q => q.req := by
    simp [Pool.unfinished, ha]
  rw [hu] at hs
  have hdone := State.finishActive_slotsAgree (s := s) (a := a) hs.2 r m
  rwa [Pool.unfinished_none (p := (s.finishActive a r m).pool) rfl]

/-- The ACTIVE record with other counts is the same record. -/
theorem State.poolAndSlotsAgree_of_active {s t : State} (hs : s.poolAndSlotsAgree)
    (hq : t.pool.queued = s.pool.queued)
    (ha : t.pool.active.map (fun a => a.req) = s.pool.active.map fun a => a.req)
    (hd : t.pool.done = s.pool.done) (ho : t.staging.owner = s.staging.owner) :
    t.poolAndSlotsAgree := by
  rw [State.poolAndSlotsAgree_iff] at hs ⊢
  rwa [Pool.unfinished, hq, ha, hd, ho]

theorem State.finishIfLast_agrees {s : State} {a : Active} (hs : s.poolAndSlotsAgree)
    (ha : s.pool.active.map (fun a => a.req) = some a.req) :
    (s.finishIfLast a).poolAndSlotsAgree := by
  have hstays : State.poolAndSlotsAgree { s with pool.active := some a } :=
    State.poolAndSlotsAgree_of_active hs rfl ha.symm rfl rfl
  rcases s.finishIfLast_cases a with ⟨_, e⟩ | ⟨_, _, ⟨_, e⟩ | ⟨_, _, e⟩ | ⟨_, _, e⟩⟩ <;> rw [e]
  · exact hstays
  · exact State.finishActive_agrees hs ha _ _
  · exact hstays
  · exact State.finishActive_agrees hs ha _ _

@[simp] theorem State.storeRequested_owner (s : State) (r : Request) (x : Burst) :
    (s.storeRequested r x).staging.owner = s.staging.owner := by
  unfold State.storeRequested
  split <;> rfl

theorem State.completeForRecord_agrees {s : State} (hs : s.poolAndSlotsAgree) (x : Burst) :
    (s.completeForRecord x).poolAndSlotsAgree := by
  cases ha : s.pool.active with
  | none => simpa [State.completeForRecord, ha] using hs
  | some a =>
    rw [s.completeForRecord_some x a ha]
    refine State.finishIfLast_agrees ?_ (by simp)
    exact State.poolAndSlotsAgree_of_active hs (by simp) (by simp [ha, State.counted]) (by simp)
      (by simp)

/-- ABORT keeps pool and slots in agreement: the QUEUED records end, then the ACTIVE one. -/
theorem State.abortAll_agrees {s : State} (hs : s.poolAndSlotsAgree) :
    s.abortAll.poolAndSlotsAgree := by
  have h := s.poolAndSlotsAgree_iff.1 hs
  obtain ⟨owner, e, _⟩ := State.retireQueued_spec s.pool.queued { s with pool.queued := [] }
  have hagree := State.retireQueued_slotsAgree s.pool.queued { s with pool.queued := [] }
    (s.pool.active.map (fun a => a.req)).toList (h.2.perm List.perm_append_comm)
  have hqueued : (State.retireQueued { s with pool.queued := [] } s.pool.queued).pool.queued = [] := by
    rw [e]
  have hactive : (State.retireQueued { s with pool.queued := [] } s.pool.queued).pool.active =
      s.pool.active := by
    rw [e]
  unfold State.abortAll
  generalize State.retireQueued { s with pool.queued := [] } s.pool.queued = v at *
  have hv : v.poolAndSlotsAgree := by
    rw [State.poolAndSlotsAgree_iff]
    refine ⟨by simp [hqueued], ?_⟩
    simpa [Pool.unfinished, hqueued, hactive] using hagree
  unfold State.abortActive
  split
  · exact hv
  next a ha =>
    dsimp only
    split
    · exact State.poolAndSlotsAgree_of_active hv rfl (by simp [ha]) rfl rfl
    · exact State.finishActive_agrees (s := { v with sched := v.sched.endRecordJob })
        hv (by simp [ha]) _ _

/-- A SOFT_RESET that takes effect leaves no record and no LENT slot (R41, R46). -/
theorem State.softResetEffect_agrees (s : State) : s.softResetEffect.poolAndSlotsAgree := by
  rw [State.poolAndSlotsAgree_iff]
  have hp : s.softResetEffect.pool = s.emptyHostSide.pool := by simp [State.softResetEffect]
  have ho : s.softResetEffect.staging = s.emptyHostSide.staging := by simp [State.softResetEffect]
  rw [hp, ho]
  exact ⟨nofun, SlotsAgree.empty⟩

/-! ### Posts -/

theorem State.checkPost_accepted {s : State} {r : Request} (h : s.checkPost = .accepted)
    (hr : s.bus.submission = some r) :
    s.pool.live < 16 ∧ r.tag ∉ s.pool.tags ∧ r.lengthBad = false ∧ r.slotBad = false ∧
      r.slotBusy s.staging = false := by
  unfold State.checkPost at h
  split at h
  · cases h
  next hfree =>
    split at h
    · cases h
    · rw [hr] at h
      dsimp only at h
      unfold State.checkRequest at h
      have hlive : s.pool.live < 16 := by
        unfold Pool.free at hfree
        omega
      (repeat' split at h) <;> try cases h
      rename_i htag hlength _ _ hslot hbusy
      rw [s.pool.tagLive_iff r.tag] at htag
      exact ⟨hlive, htag, by simpa using hlength, by simpa using hslot, by simpa using hbusy⟩

/-- The span of a request that passes check 9 is HOST (R23). -/
theorem Request.owner_of_not_slotBusy {r : Request} {b : Staging} (h : r.slotBusy b = false)
    {i : Nat} (hi : i < 32) (hc : r.covers i) : b.owner[i] = none := by
  obtain ⟨slot, hslot, hlo, hhi⟩ := hc
  by_contra hne
  have : r.slotBusy b = true := by
    unfold Request.slotBusy
    rw [hslot]
    exact (b.spanBusy_iff slot _).2 ⟨⟨i, hi⟩, hlo, hhi, hne⟩
  rw [h] at this
  cases this

theorem State.accept_agrees {s : State} {r : Request} (hs : s.poolAndSlotsAgree)
    (h : s.checkPost = .accepted) (hr : s.bus.submission = some r) :
    (s.accept r).poolAndSlotsAgree := by
  obtain ⟨hlive, htag, _, _, hbusy⟩ := State.checkPost_accepted h hr
  have hroom : s.pool.unfinished.length + (s.pool.done.map fun d => d.tag).length < 16 := by
    rw [Pool.live_eq] at hlive
    simp only [Pool.unfinished, List.length_append, List.length_map]
    cases ha : s.pool.active <;> simp [ha] at hlive ⊢ <;> omega
  have hnew : r.tag ∉ s.pool.unfinished.map (fun r => r.tag) ++ s.pool.done.map fun d => d.tag := by
    simp only [Pool.tags, Pool.unfinished] at htag ⊢
    cases ha : s.pool.active <;> simp [ha] at htag ⊢ <;> tauto
  obtain ⟨hages, hagree⟩ := s.poolAndSlotsAgree_iff.1 hs
  have hlent := hagree.lend hroom hnew fun i hi hc => Request.owner_of_not_slotBusy hbusy hi hc
  rw [State.poolAndSlotsAgree_iff]
  have hpool : (s.accept r).pool = { s.pool with
      queued := s.pool.queued ++ [{ req := r, seq := s.pool.counter, age := 0 }]
      counter := s.pool.counter + 1 } := by
    simp [State.accept]
  have hstaging : (s.accept r).staging = s.staging.setOwner r (some r.tag) := by
    simp [State.accept]
  rw [hpool, hstaging]
  constructor
  · intro q hq
    rcases List.mem_append.1 hq with hq | hq
    · exact hages q hq
    · rw [List.mem_singleton.1 hq]
      exact Nat.zero_le _
  · refine hlent.perm ?_
    simp only [Pool.unfinished, List.map_append, List.map_cons, List.map_nil, ← List.append_assoc]
    exact List.perm_append_singleton _ _

/-! ### Selections -/

theorem eligibleFrom_subset (l : List Queued) : ∀ (earlier : List Queued) (q : Queued),
    q ∈ eligibleFrom earlier l → q ∈ l := by
  induction l with
  | nil => exact fun _ _ h => h
  | cons p l ih =>
    intro earlier q h
    unfold eligibleFrom at h
    split at h
    · exact List.mem_cons_of_mem _ (ih _ q h)
    · rcases List.mem_cons.1 h with rfl | h
      · exact List.mem_cons_self
      · exact List.mem_cons_of_mem _ (ih _ q h)

theorem State.chooseInGroup_mem {s : State} {l : List Queued} {q : Queued}
    (h : s.chooseInGroup l = some q) : q ∈ l := by
  unfold State.chooseInGroup at h
  split at h
  next hf =>
    cases h
    exact List.mem_of_find?_eq_some hf
  next => exact List.mem_of_head? h

theorem State.chooseFrom_mem {s : State} {l : List Queued} {q : Queued}
    (h : s.chooseFrom l = some q) : q ∈ l := by
  unfold State.chooseFrom at h
  split at h
  next hf =>
    cases h
    exact List.mem_of_find?_eq_some hf
  next =>
    split at h
    · exact (List.mem_filter.1 (State.chooseInGroup_mem h)).1
    · exact (List.mem_filter.1 (State.chooseInGroup_mem h)).1

theorem State.chosen_mem {s : State} {q : Queued} (h : s.chosen = some q) : q ∈ s.pool.queued :=
  eligibleFrom_subset _ [] q (State.chooseFrom_mem h)

/-- Passing over records touches their ages only: the chosen one is out, the requests are the others'. -/
theorem passOver_map_req (q : Queued) (l : List Queued) : ∀ earlier : List Queued,
    (passOver q earlier l).map (fun e => e.req) =
      (l.filter fun e => decide (e ≠ q)).map fun e => e.req := by
  induction l with
  | nil => exact fun _ => rfl
  | cons e l ih =>
    intro earlier
    unfold passOver
    by_cases h : e = q
    · simp [h, ih]
    · rw [if_neg h, List.map_cons, ih, List.filter_cons_of_pos (by simpa using h), List.map_cons]
      split <;> rfl

theorem passOver_age_le {q : Queued} (l : List Queued) : ∀ earlier : List Queued,
    (∀ e, e ∈ l → e.age ≤ 15) → ∀ e, e ∈ passOver q earlier l → e.age ≤ 15 := by
  induction l with
  | nil => exact fun _ _ _ h => nomatch h
  | cons p l ih =>
    intro earlier hl e he
    have htail := ih (earlier ++ [p]) fun e he => hl e (List.mem_cons_of_mem _ he)
    unfold passOver at he
    split at he
    · exact htail e he
    · rcases List.mem_cons.1 he with rfl | he
      · split
        · exact hl p List.mem_cons_self
        · exact Nat.min_le_left _ _
      · exact htail e he

/-- The requests after a selection are those before it, the chosen one in front. -/
theorem perm_passOver {q : Queued} {l : List Queued} (hq : q ∈ l) (hl : l.Nodup) :
    (q.req :: (passOver q [] l).map fun e => e.req).Perm (l.map fun e => e.req) := by
  rw [passOver_map_req, ← List.map_cons (f := fun e : Queued => e.req)]
  refine List.Perm.map _ ?_
  have herase : l.filter (fun e => decide (e ≠ q)) = l.erase q := by
    rw [hl.erase_eq_filter]
    exact List.filter_congr fun e _ => by simp [bne, beq_eq_decide]
  rw [herase]
  exact (List.perm_cons_erase hq).symm

theorem State.select_agrees {s : State} (hs : s.poolAndSlotsAgree) (ha : s.pool.active = none) :
    s.select.poolAndSlotsAgree := by
  unfold State.select
  split
  next q hq =>
    refine State.poolAndSlotsAgree_of_active (s := State.grant { s with
      pool.queued := passOver q [] s.pool.queued
      pool.active := some q.activate } .recordBurst) ?_ (by simp) (by simp) (by simp) (by simp)
    obtain ⟨hages, hagree⟩ := s.poolAndSlotsAgree_iff.1 hs
    rw [State.poolAndSlotsAgree_iff]
    refine ⟨passOver_age_le _ _ hages, hagree.perm ?_⟩
    rw [Pool.unfinished_none ha]
    refine perm_passOver (State.chosen_mem hq) ?_
    have hnodup := (List.nodup_append.1 hagree.2.1).1
    rw [Pool.unfinished_none ha, List.map_map] at hnodup
    exact hnodup.of_map
  next => exact hs

theorem Pool.pause_active_req (p : Pool) :
    p.pause.active.map (fun a => a.req) = p.active.map fun a => a.req := by
  simp [Pool.pause, Function.comp_def]

/-! ### The block that the ACTIVE record issues -/

/-- The block of a record burst job that may be issued (R62, R89). -/
theorem State.recordBlock_eq_some {s : State} {a : Active} {x : Block} :
    s.recordBlock = some (a, x) ↔ s.sched.job = some .recordBurst ∧ s.pool.active = some a ∧
      a.block s.setup.workGeometry = some x ∧ a.aborting = false ∧
      s.burstAllowed x.bank x.row = true := by
  unfold State.recordBlock
  split
  next b hj ha =>
    split
    next y hy =>
      constructor
      · intro h
        split at h
        next hok =>
          simp only [Bool.and_eq_true, Bool.not_eq_true'] at hok
          cases h
          exact ⟨hj, ha, hy, hok⟩
        next => cases h
      · rintro ⟨_, ha', hy', hab, hok⟩
        obtain rfl : b = a := Option.some.inj (ha.symm.trans ha')
        obtain rfl : y = x := Option.some.inj (hy.symm.trans hy')
        simp [hab, hok]
    next hnone =>
      refine ⟨nofun, ?_⟩
      rintro ⟨_, ha', hy, _⟩
      obtain rfl : b = a := Option.some.inj (ha.symm.trans ha')
      rw [hnone] at hy
      cases hy
  next hnone =>
    refine ⟨nofun, ?_⟩
    rintro ⟨hj, ha, _⟩
    exact (hnone a hj ha).elim

/-- A READ_BURST that may be issued is the ACTIVE record's next block (R9, R89). -/
theorem State.dueRead_recordBlock {s : State} {a : Active} {x : Block} {l : Nat}
    (h : s.dueRead = some (a, x, l)) : s.recordBlock = some (a, x) := by
  unfold State.dueRead at h
  split at h
  next hb _ =>
    split at h
    · cases h
      exact hb
    · cases h
  next => cases h

/-! ### What every step keeps -/

/-- Every command keeps pool and slots in agreement. -/
theorem exec_keeps_poolAndSlotsAgree {c : Instr} {s t : State} (h : exec c s = .next t)
    (hs : s.poolAndSlotsAgree) : t.poolAndSlotsAgree := by
  by_cases hc : .pool ∉ partsOf c ∧ .staging ∉ partsOf c
  case pos =>
    obtain ⟨_, hpool, hstaging, _⟩ := exec_keepsBut h
    rwa [State.poolAndSlotsAgree, hpool hc.1, hstaging hc.2]
  cases c <;> simp only [exec] at h
  case hardwareReset =>
    injection h with h
    subst h
    rw [State.poolAndSlotsAgree_iff]
    exact ⟨nofun, SlotsAgree.empty⟩
  case post =>
    refine State.take_keeps (P := State.poolAndSlotsAgree) h hs ?_
    split
    next hcheck hr => exact State.accept_agrees hs hcheck hr
    next => exact hs
  case release =>
    refine State.take_keeps (P := State.poolAndSlotsAgree) h hs ?_
    split
    · exact hs
    next hd =>
      rw [State.poolAndSlotsAgree_iff, hd] at hs
      exact (State.poolAndSlotsAgree_iff _).2 ⟨hs.1, hs.2.dropDone⟩
  case dataPortWrite =>
    refine State.take_keeps (P := State.poolAndSlotsAgree) h hs ?_
    split <;> exact hs
  case abort =>
    exact State.command_keeps (P := State.poolAndSlotsAgree) h hs
      (by rintro x _ hx ⟨_, _, rfl⟩; exact hx) fun _ => State.abortAll_agrees hs
  case softReset =>
    refine State.take_keeps (P := State.poolAndSlotsAgree) h hs ?_
    split
    · exact hs
    · exact State.softResetEffect_agrees _
  case softResetTakesEffect =>
    refine State.take_keeps (P := State.poolAndSlotsAgree) h hs ?_
    split
    · exact State.softResetEffect_agrees _
    · exact hs
  case readBurstCompletion =>
    refine State.takeAt_keeps (P := State.poolAndSlotsAgree) h hs fun n _ => ?_
    split
    · exact State.completeForRecord_agrees (by exact hs) _
    · exact hs
  case writeBurstCompletion =>
    refine State.takeAt_keeps (P := State.poolAndSlotsAgree) h hs fun n _ => ?_
    split
    next x rest _ =>
      unfold State.completeWrite
      split
      · exact State.completeForRecord_agrees (by exact hs) _
      · exact State.poolAndSlotsAgree_of_active hs (by simp) (by simp) (by simp) (by simp)
      · exact hs
    next => exact hs
  case selection =>
    refine State.take_keeps (P := State.poolAndSlotsAgree) h hs ?_
    split
    next hg =>
      refine State.select_agrees hs ?_
      simp only [State.selectionGrant, State.selectionClaim, Bool.and_eq_true,
        Option.isNone_iff_eq_none] at hg
      exact hg.1.1.1.2.1.1
    next => exact hs
  case recordBurstGrant =>
    refine State.take_keeps (P := State.poolAndSlotsAgree) h hs ?_
    split
    · refine State.poolAndSlotsAgree_of_active hs ?_ ?_ ?_ ?_
      all_goals simp [Pool.resume, Function.comp_def]
    · exact hs
  case captureChunkGrant =>
    refine State.take_keeps (P := State.poolAndSlotsAgree) h hs ?_
    split
    · exact State.poolAndSlotsAgree_of_active hs rfl s.pool.pause_active_req rfl rfl
    · split <;> exact hs
  case urgentRefreshGrant =>
    refine State.take_keeps (P := State.poolAndSlotsAgree) h hs ?_
    split
    · exact State.poolAndSlotsAgree_of_active hs rfl s.pool.pause_active_req rfl rfl
    · exact hs
  case readBurst =>
    refine State.takeAt_keeps (P := State.poolAndSlotsAgree) h hs fun n _ => ?_
    split
    next a x l hd =>
      obtain ⟨_, ha, _⟩ := State.recordBlock_eq_some.1 (State.dueRead_recordBlock hd)
      exact State.poolAndSlotsAgree_of_active hs rfl (by rw [ha]; rfl) rfl rfl
    next => exact hs
  case writeBurst =>
    refine State.takeAt_keeps (P := State.poolAndSlotsAgree) h hs fun n _ => ?_
    split
    next x data user w hd =>
      unfold State.afterWrite
      split
      · exact State.poolAndSlotsAgree_of_active hs (by simp) (by simp) (by simp) (by simp)
      · exact hs
      · refine State.poolAndSlotsAgree_of_active hs rfl ?_ rfl rfl
        simp [Function.comp_def, Active.advance]
    next => exact hs
  all_goals simp [partsOf] at hc

/-- Settles O57: every command keeps pool and slots in agreement. -/
theorem poolAndSlotsAgreeAtEveryStep : Obligations.PoolAndSlotsAgreeAtEveryStep := by
  intro s t h hs
  exact step_keeps h hs (fun _ _ hx => hx) (fun _ _ hx => hx) (fun _ _ hx => hx)
    fun _ _ _ => exec_keeps_poolAndSlotsAgree

end Sys2Proof.Machine

/-! The Bank Table (R57, R67, R83, R166, R173): which commands bring the array to rest, and why every
command keeps the entries formed and the banks CLOSED where the array rests. -/

namespace Sys2Proof.Machine

/-! ### Coming to rest -/

/-- From `s` to `t` the array state has stayed, or is one in which the array does not rest. -/
def State.noNewRest (s t : State) : Prop :=
  t.ctrl.arrayState = s.ctrl.arrayState ∨ t.ctrl.arrayState.resting = false

theorem State.noNewRest_of_eq {s t : State} (h : t.ctrl.arrayState = s.ctrl.arrayState) :
    s.noNewRest t :=
  Or.inl h

theorem State.noNewRest_trans {s t u : State} (h1 : s.noNewRest t) (h2 : t.noNewRest u) :
    s.noNewRest u := by
  rcases h2 with h | h
  · rcases h1 with e | e
    · exact Or.inl (h.trans e)
    · exact Or.inr (by rwa [h])
  · exact Or.inr h

section
variable (s : State)

@[simp] theorem State.wakeCause_arrayState : s.wakeCause.ctrl.arrayState = s.ctrl.arrayState := by
  rcases s.wakeCause_cases with ⟨_, _, e⟩ | ⟨_, _, e⟩ | e <;> rw [e] <;> rfl

@[simp] theorem State.demandCause_arrayState :
    s.demandCause.ctrl.arrayState = s.ctrl.arrayState := by
  unfold State.demandCause
  split <;> simp

@[simp] theorem State.suspendForRefresh_arrayState :
    s.suspendForRefresh.ctrl.arrayState = s.ctrl.arrayState := by
  rcases s.suspendForRefresh_spec with e | ⟨_, _, e⟩ <;> rw [e]

@[simp] theorem State.nextProbe_arrayState :
    s.nextProbe.ctrl.arrayState = s.ctrl.arrayState := by
  rcases s.nextProbe_spec with ⟨_, e⟩ | ⟨_, e⟩ <;> rw [e]
  simp

@[simp] theorem State.urgentCause_arrayState :
    s.urgentCause.ctrl.arrayState = s.ctrl.arrayState := by
  unfold State.urgentCause
  split <;> simp

@[simp] theorem State.askForArray_arrayState (d : Drain) :
    (s.askForArray d).ctrl.arrayState = s.ctrl.arrayState := by
  unfold State.askForArray
  dsimp only
  split <;> simp

@[simp] theorem State.lookAtRefresh_arrayState :
    s.lookAtRefresh.ctrl.arrayState = s.ctrl.arrayState := by
  unfold State.lookAtRefresh
  (repeat' split) <;> rfl

theorem State.proceed_noNewRest : s.noNewRest s.proceed := by
  have h1 : ∀ u : State, u.noNewRest u.endSetModeIfNothingToLoad := by
    intro u
    unfold State.endSetModeIfNothingToLoad
    split
    · exact Or.inr rfl
    · exact Or.inl rfl
  have h2 : ∀ u : State, u.noNewRest u.endRestore := by
    intro u
    unfold State.endRestore
    split
    · split
      · exact Or.inr rfl
      · exact Or.inl rfl
    · exact Or.inl rfl
  exact State.noNewRest_trans (State.noNewRest_trans
    (State.noNewRest_of_eq s.lookAtRefresh_arrayState) (h1 _)) (h2 _)

theorem State.afterSettle_noNewRest : s.noNewRest s.afterSettle := by
  unfold State.afterSettle
  split
  · unfold State.loadsSettled
    (repeat' split) <;> first | exact Or.inl rfl | exact Or.inr rfl
  · exact Or.inl rfl
  · exact Or.inl (by simp)
  · unfold State.endAlignment
    dsimp only
    split <;> exact Or.inr rfl
  · exact Or.inr rfl
  · exact s.proceed_noNewRest

theorem State.afterWake_noNewRest : s.noNewRest s.afterWake := by
  unfold State.afterWake
  (repeat' split) <;> first | exact Or.inl rfl | exact Or.inr rfl

theorem State.lockRestartStep_arrayState :
    s.lockRestartStep.ctrl.arrayState = s.ctrl.arrayState := by
  unfold State.lockRestartStep
  dsimp only
  split <;> rfl

theorem State.captureStop_arrayState : s.captureStop.ctrl.arrayState = s.ctrl.arrayState := by
  unfold State.captureStop
  dsimp only
  split <;> simp

theorem State.offer_arrayState (w : Word) : (s.offer w).ctrl.arrayState = s.ctrl.arrayState := by
  unfold State.offer
  split <;> simp

theorem State.closeAll_arrayState : s.closeAll.ctrl.arrayState = s.ctrl.arrayState := by
  unfold State.closeAll
  dsimp only
  split <;> rfl

theorem State.afterRenew_arrayState : s.afterRenew.ctrl.arrayState = s.ctrl.arrayState := by
  unfold State.afterRenew
  (repeat' split) <;> rfl

/-- SOFT_RESET lets the array come to rest from STARTING alone, where it rests already. -/
theorem State.softResetArray_rest (h : s.softResetArray.ctrl.arrayState.resting = true) :
    s.ctrl.arrayState.resting = true := by
  unfold State.softResetArray at h
  split at h <;> first | exact h | skip
  next e =>
    rw [e]
    rfl
  all_goals (repeat' split at h) <;> exact h

end

/-- Only NAP_IN, RETAIN_IN and a hardware reset bring an array to rest that does not rest. -/
theorem exec_rest {c : Instr} {s t : State} (h : exec c s = .next t)
    (hc : c ≠ .napIn ∧ c ≠ .retainIn ∧ c ≠ .hardwareReset)
    (ht : t.ctrl.arrayState.resting = true) : s.ctrl.arrayState.resting = true := by
  by_cases hp : .ctrl ∈ partsOf c
  case neg =>
    obtain ⟨_, _, _, _, _, _, _, _, _, hctrl, _⟩ := exec_keepsBut h
    rwa [hctrl hp] at ht
  by_contra hs
  let P (x : State) := ¬ x.ctrl.arrayState.resting = true
  suffices P t from this ht
  have stands : ∀ x y : State, P x → x.noNewRest y → P y := by
    rintro x y hx (e | e)
    · show ¬ y.ctrl.arrayState.resting = true
      rwa [e]
    · show ¬ y.ctrl.arrayState.resting = true
      simp [e]
  have answered : ∀ x y : State, P x → (∃ c z, y = x.answer c z) → P y := by
    rintro x _ hx ⟨_, _, rfl⟩
    exact hx
  cases c <;> simp only [exec] at h
  case napIn => exact absurd rfl hc.1
  case retainIn => exact absurd rfl hc.2.1
  case hardwareReset => exact absurd rfl hc.2.2
  case startArray =>
    refine State.command_keeps (P := P) h hs answered fun ho => ?_
    by_cases hcold : s.ctrl.arrayState = .cold
    · rw [hcold] at hs
      exact absurd rfl hs
    · rw [State.startArrayOutcome_state hcold] at ho
      cases ho
  case setMode | align =>
    exact State.command_keeps (P := P) h hs answered fun _ => by
      simp [P, State.setMode, State.startAlign, ArrayState.resting]
  case retainEnter =>
    exact State.command_keeps (P := P) h hs answered fun _ => stands _ _ hs (Or.inl (by simp))
  case retainExit =>
    refine State.command_keeps (P := P) h hs answered fun _ => ?_
    split <;> exact hs
  case closeAll =>
    exact State.command_keeps (P := P) h hs answered fun _ =>
      stands _ _ hs (Or.inl s.closeAll_arrayState)
  case captureStop =>
    exact State.command_keeps (P := P) h hs answered fun _ =>
      stands _ _ hs (Or.inl s.captureStop_arrayState)
  case softReset =>
    refine State.take_keeps (P := P) h hs ?_
    split
    · exact hs
    · exact fun hr => hs (State.softResetArray_rest s.softResetCommand.emptyHostSide (by exact hr))
  case softResetTakesEffect =>
    refine State.take_keeps (P := P) h hs ?_
    split
    · exact fun hr => hs (State.softResetArray_rest s.emptyHostSide (by exact hr))
    · exact hs
  case post =>
    refine State.take_keeps (P := P) h hs ?_
    split
    · exact stands s _ hs (Or.inl (State.wakeCause_arrayState _))
    · exact hs
  case refreshSettingWrite =>
    refine State.take_keeps (P := P) h hs ?_
    (repeat' split) <;> first | exact hs | exact stands s _ hs (Or.inl (State.urgentCause_arrayState _))
  case consumerWrite =>
    refine State.take_keeps (P := P) h hs ?_
    split
    · exact stands s _ hs (Or.inl (State.demandCause_arrayState _))
    · exact hs
  case autoAlignWrite | laneDelayWrite =>
    refine State.take_keeps (P := P) h hs ?_
    (repeat' split) <;> exact hs
  case shadowWrite => exact State.take_keeps (P := P) h hs hs
  case drainGrant | restoreGrant =>
    refine State.take_keeps (P := P) h hs ?_
    split
    · refine stands _ _ ?_ (State.proceed_noNewRest _)
      exact hs
    · exact hs
  case captureByteArrival =>
    refine State.take_keeps (P := P) h hs ?_
    (repeat' split) <;> first | exact hs | exact stands s _ hs (Or.inl (State.offer_arrayState _ _))
  all_goals try simp [partsOf] at hp
  case wakeEnd =>
    exact State.takeAt_keeps (P := P) h hs fun n _ =>
      stands _ _ (by exact hs) (State.afterWake_noNewRest _)
  case closeTimeExpiry | modeHoldExpiry | renewCompletion =>
    exact State.takeAt_keeps (P := P) h hs fun n _ =>
      stands _ _ (by exact hs) (State.proceed_noNewRest _)
  case modeSettleExpiry =>
    exact State.takeAt_keeps (P := P) h hs fun n _ =>
      stands _ _ (by exact hs) (State.afterSettle_noNewRest _)
  case refreshPeriodExpiry =>
    refine State.takeAt_keeps (P := P) h hs fun n _ => stands s _ hs (Or.inl ?_)
    simp only [State.urgentCause_arrayState]
    unfold State.countPeriod
    split <;> rfl
  case lockPhaseExpiry | retainMinExpiry | retainExitTimeExpiry =>
    refine State.takeAt_keeps (P := P) h hs fun n _ => ?_
    try dsimp only
    split <;> first
      | exact hs
      | exact stands s _ hs (Or.inr rfl)
      | exact stands s _ hs (Or.inl (State.lockRestartStep_arrayState _))
  case renew =>
    exact State.takeAt_keeps (P := P) h hs fun n _ =>
      stands s _ hs (Or.inl (State.afterRenew_arrayState _))
  all_goals
    refine State.takeAt_keeps (P := P) h hs fun n _ => ?_
    try dsimp only
    (repeat' split) <;> first
      | exact hs
      | exact stands s _ hs (Or.inl (by simp [Ctrl.sampleTap]; try rfl))

end Sys2Proof.Machine

/-! The entries of the Bank Table (R57, R67): what the commands do to the states of the banks. -/

namespace Sys2Proof.Machine

/-! ### Entries that keep their row -/

/-- From `e` to `f` an entry has kept its state, its row and the two windows of its state, and has got
no close mark that an OPENING or OPEN bank may not have. -/
def Bank.keepsRow (e f : Bank) : Prop :=
  f.state = e.state ∧ f.openRow = e.openRow ∧ f.openDelayEnd = e.openDelayEnd ∧
  f.closeTimeEnd = e.closeTimeEnd ∧
    (f.mark = true → e.mark = true ∨ e.state = .opening ∨ e.state = .opened)

theorem Bank.keepsRow_refl (e : Bank) : e.keepsRow e := ⟨rfl, rfl, rfl, rfl, Or.inl⟩

theorem Bank.keepsRow_trans {e f g : Bank} (h1 : e.keepsRow f) (h2 : f.keepsRow g) :
    e.keepsRow g := by
  obtain ⟨s1, r1, o1, c1, m1⟩ := h1
  obtain ⟨s2, r2, o2, c2, m2⟩ := h2
  refine ⟨s2.trans s1, r2.trans r1, o2.trans o1, c2.trans c1, fun h => ?_⟩
  rcases m2 h with h | h
  · exact m1 h
  · exact Or.inr (s1 ▸ h)

theorem Bank.formed_of_keepsRow {e f : Bank} (h : e.keepsRow f) (he : e.formed) : f.formed := by
  obtain ⟨hs, hr, ho, hc, hm⟩ := h
  obtain ⟨fr, fo, fc, fm⟩ := he
  refine ⟨?_, ?_, ?_, fun h => ?_⟩
  · rwa [hs, hr]
  · rwa [hs, ho]
  · rwa [hs, hc]
  · rw [hs]
    exact (hm h).elim fm id

theorem Bank.markRow_keepsRow (e : Bank) (row : Nat) : e.keepsRow (e.markRow row) := by
  unfold Bank.markRow
  split
  · next h => exact ⟨rfl, rfl, rfl, rfl, fun _ => Or.inr (of_decide_eq_true h).1⟩
  · exact e.keepsRow_refl

theorem Bank.markOpen_keepsRow (e : Bank) : e.keepsRow e.markOpen := by
  unfold Bank.markOpen
  split
  · next h => exact ⟨rfl, rfl, rfl, rfl, fun _ => Or.inr h⟩
  · exact e.keepsRow_refl

theorem Bank.clearShutWindow_keepsRow (e : Bank) (w : ShutWindow) :
    e.keepsRow (e.clearShutWindow w) := by
  cases w <;> exact ⟨rfl, rfl, rfl, rfl, Or.inl⟩

/-- From `s` to `t` every bank has kept its row. -/
def State.keepsRows (s t : State) : Prop := ∀ b : Fin 8, (s.bank b).keepsRow (t.bank b)

theorem State.keepsRows_of_banks {s t : State} (h : t.table.banks = s.table.banks) :
    s.keepsRows t := by
  intro b
  unfold State.bank
  rw [h]
  exact Bank.keepsRow_refl _

theorem State.keepsRows_trans {s t u : State} (h1 : s.keepsRows t) (h2 : t.keepsRows u) :
    s.keepsRows u :=
  fun b => Bank.keepsRow_trans (h1 b) (h2 b)

theorem State.setBank_keepsRows {s : State} {b : Fin 8} {e : Bank} (h : (s.bank b).keepsRow e) :
    s.keepsRows (s.setBank b e) := by
  intro c
  rw [State.setBank_bank]
  split
  · next hc => rwa [hc]
  · exact Bank.keepsRow_refl _

theorem State.markRow_keepsRows (s : State) (b : Fin 8) (row : Nat) : s.keepsRows (s.markRow b row) :=
  State.setBank_keepsRows (Bank.markRow_keepsRow _ row)

theorem State.segmentEnd_keepsRows (s : State) (a : Active) (x : Burst) :
    s.keepsRows (s.segmentEnd a x) := by
  unfold State.segmentEnd State.segmentDecision
  (repeat' split) <;> first | exact s.markRow_keepsRows _ _ | exact State.keepsRows_of_banks rfl

theorem State.chunkDecision_keepsRows (s : State) (b : Fin 8) (row : Nat) :
    s.keepsRows (s.chunkDecision b row) := by
  unfold State.chunkDecision
  split
  · exact State.keepsRows_of_banks rfl
  · exact s.markRow_keepsRows _ _

theorem State.writeLands_keepsRows (s : State) (x : Burst) (t : Nat) :
    s.keepsRows (s.writeLands x t) := by
  refine State.keepsRows_trans (t := s.setBank x.bank
    { s.bank x.bank with writeRecovery := s.writeRecoveryAfter x.bank t }) ?_
    (State.keepsRows_of_banks rfl)
  exact State.setBank_keepsRows ⟨rfl, rfl, rfl, rfl, Or.inl⟩

theorem State.issueRead_keepsRows (s : State) (a : Active) (x : Block) (l t : Nat) :
    s.keepsRows (s.issueRead a x l t) := by
  refine State.keepsRows_trans (t := s.setBank x.bank
    { s.bank x.bank with readToShutEnd := some (t + s.setup.readToShut) }) ?_
    (State.keepsRows_of_banks rfl)
  exact State.setBank_keepsRows ⟨rfl, rfl, rfl, rfl, Or.inl⟩

theorem State.issueWrite_keepsRows (s : State) (x : Block) (data : List Word) (user : BurstUser)
    (w t : Nat) : s.keepsRows (s.issueWrite x data user w t) := by
  refine State.keepsRows_trans (t := s.setBank x.bank
    { s.bank x.bank with writeRecovery := .pending }) ?_ (State.keepsRows_of_banks rfl)
  exact State.setBank_keepsRows ⟨rfl, rfl, rfl, rfl, Or.inl⟩

theorem State.completeForRecord_keepsRows (s : State) (x : Burst) :
    s.keepsRows (s.completeForRecord x) := by
  unfold State.completeForRecord
  split
  · refine State.keepsRows_trans ?_ (State.keepsRows_of_banks (by simp; rfl))
    exact State.keepsRows_trans (State.keepsRows_of_banks (by simp)) (State.segmentEnd_keepsRows _ _ _)
  · exact State.keepsRows_of_banks rfl

theorem State.completeWrite_keepsRows (s : State) (x : Burst) :
    s.keepsRows (s.completeWrite x) := by
  unfold State.completeWrite
  split
  · exact s.completeForRecord_keepsRows x
  · exact s.chunkDecision_keepsRows _ _
  · exact State.keepsRows_of_banks rfl

theorem State.closeAll_keepsRows (s : State) : s.keepsRows s.closeAll := by
  have hmarked : s.keepsRows { s with table := s.table.mapBanks Bank.markOpen } := by
    intro b
    unfold State.bank
    rw [Table.mapBanks_get]
    exact Bank.markOpen_keepsRow _
  unfold State.closeAll
  dsimp only
  split
  · exact State.keepsRows_trans hmarked (State.keepsRows_of_banks rfl)
  · exact hmarked

/-! ### The commands -/

/-- The commands that open, shut or close a bank: a ROW_OPEN, a ROW_SHUT, the ends of their windows,
and a hardware reset. -/
def changesRows : Instr → Bool
  | .rowOpen | .rowShut | .openDelayExpiry _ | .closeTimeExpiry _ | .hardwareReset => true
  | _ => false

/-- Any other command leaves every bank its row. -/
theorem exec_keepsRows {c : Instr} {s t : State} (h : exec c s = .next t)
    (hc : changesRows c = false) : s.keepsRows t := by
  by_cases hp : .table ∈ partsOf c
  case neg =>
    obtain ⟨_, _, _, _, _, htable, _⟩ := exec_keepsBut h
    exact State.keepsRows_of_banks (by rw [htable hp])
  let P (x : State) := s.keepsRows x
  have refl : P s := State.keepsRows_of_banks rfl
  have same {x : State} (hx : x.table.banks = s.table.banks) : P x := State.keepsRows_of_banks hx
  cases c <;> simp only [exec] at h
  case policyWrite =>
    refine State.take_keeps (P := P) h refl ?_
    (repeat' split) <;> exact same (by simp)
  case closeAll =>
    exact State.command_keeps (P := P) h refl (by rintro x _ hx ⟨_, _, rfl⟩; exact hx)
      fun _ => s.closeAll_keepsRows
  case shutWindowExpiry b w =>
    refine State.takeAt_keeps (P := P) h refl fun n _ => ?_
    have hn : s.keepsRows (s.atAC n) := same rfl
    exact State.keepsRows_trans hn
      (State.setBank_keepsRows (Bank.clearShutWindow_keepsRow ((s.atAC n).bank b) w))
  case readBurstCompletion =>
    refine State.takeAt_keeps (P := P) h refl fun n _ => ?_
    dsimp only
    split
    · next x rest _ =>
      let u : State := { s.atAC n with sched.inFlight := rest }
      have hu : s.keepsRows u := same rfl
      exact State.keepsRows_trans hu (u.completeForRecord_keepsRows x)
    · exact refl
  case writeBurstCompletion =>
    refine State.takeAt_keeps (P := P) h refl fun n _ => ?_
    dsimp only
    split
    · next x rest _ =>
      let u : State := { s.atAC n with sched.inFlight := rest }
      have hu : s.keepsRows u := same rfl
      exact State.keepsRows_trans (State.keepsRows_trans hu (u.writeLands_keepsRows x n))
        (State.completeWrite_keepsRows _ x)
    · exact refl
  case readBurst =>
    refine State.takeAt_keeps (P := P) h refl fun n _ => ?_
    split
    · exact s.issueRead_keepsRows _ _ _ _
    · exact refl
  case writeBurst =>
    refine State.takeAt_keeps (P := P) h refl fun n _ => ?_
    split
    · next x data user w _ =>
      exact State.keepsRows_trans (s.issueWrite_keepsRows x data user w n)
        (State.keepsRows_of_banks (by simp))
    · exact refl
  case openSpacingExpiry => exact State.takeAt_keeps (P := P) h refl fun n _ => same rfl
  case modeHoldExpiry | modeSettleExpiry | renewCompletion | renew =>
    exact State.takeAt_keeps (P := P) h refl fun n _ => same (by simp)
  case settlePhaseExpiry => exact State.takeAt_keeps (P := P) h refl fun n _ => same rfl
  case retainExitTimeExpiry =>
    refine State.takeAt_keeps (P := P) h refl fun n _ => ?_
    split
    · unfold State.lockRestartStep
      dsimp only
      split <;> exact same rfl
    · exact same rfl
  case modeLoad =>
    refine State.takeAt_keeps (P := P) h refl fun n _ => ?_
    dsimp only
    split
    · exact same (by simp; rfl)
    · exact refl
  all_goals simp [partsOf, changesRows] at hp hc

/-! ### Entries that change their row -/

theorem State.allClosed_iff {s : State} :
    s.allClosed = true ↔ ∀ b : Fin 8, (s.bank b).state = .closed := by
  simp [State.allClosed]

theorem State.canShut_opened {s : State} {b : Fin 8} (h : s.canShut b = true) :
    (s.bank b).state = .opened := by
  simp only [State.canShut, Bank.shutAllowed, Bool.and_eq_true, decide_eq_true_eq] at h
  exact h.1.1.1.1

/-- ROW_SHUT is issued to an OPEN bank alone (R63). -/
theorem State.shutTarget_opened {s : State} {b : Fin 8} (h : s.shutTarget = some b) :
    (s.bank b).state = .opened := by
  apply State.canShut_opened
  unfold State.shutTarget at h
  split at h
  · split at h
    · next hb =>
      injection h with h
      exact h ▸ hb
    · cases h
  · split at h
    · exact (List.find?_some h)
    · split at h
      · split at h
        · next hb =>
          injection h with h
          rw [Bool.and_eq_true] at hb
          exact h ▸ hb.1
        · cases h
      · cases h

/-- ROW_OPEN is issued to a CLOSED bank that the job needs (R60). -/
theorem State.rowOpenTarget_some {s : State} {b : Fin 8} {row : Nat}
    (h : s.rowOpenTarget = some (b, row)) :
    s.jobTarget = some (b, row) ∧ (s.bank b).state = .closed := by
  unfold State.rowOpenTarget at h
  split at h
  · split at h
    · next hj hb =>
      injection h with h
      simp only [Bool.and_eq_true, decide_eq_true_eq] at hb
      rw [hj, ← h]
      obtain ⟨rfl, rfl⟩ := Prod.mk.inj h
      exact ⟨rfl, hb.1.1.1⟩
    · cases h
  · cases h

theorem Bank.opening_formed {e : Bank} (he : e.formed) (hc : e.state = .closed) (u : Setup)
    (row t : Nat) : (e.opening u row t).formed := by
  obtain ⟨_, _, hclose, _⟩ := he
  simp_all [Bank.formed, Bank.opening]

theorem Bank.shutting_formed {e : Bank} (he : e.formed) (hc : e.state = .opened) (u : Setup)
    (t : Nat) : (e.shutting u t).formed := by
  obtain ⟨_, hopen, _, _⟩ := he
  simp_all [Bank.formed, Bank.shutting]

theorem Bank.opened_formed {e : Bank} (he : e.formed) (ho : e.state = .opening) :
    Bank.formed { e with state := .opened, openDelayEnd := none } := by
  obtain ⟨hrow, _, hclose, _⟩ := he
  simp_all [Bank.formed]

theorem Bank.closed_formed {e : Bank} (he : e.formed) (hc : e.state = .shutting) :
    Bank.formed { e with state := .closed, closeTimeEnd := none } := by
  obtain ⟨hrow, hopen, _, hmark⟩ := he
  simp_all [Bank.formed]

theorem State.setBank_formed {s : State} {b : Fin 8} {e : Bank}
    (hs : ∀ c : Fin 8, (s.bank c).formed) (he : e.formed) (c : Fin 8) :
    ((s.setBank b e).bank c).formed := by
  rw [State.setBank_bank]
  split
  · exact he
  · exact hs c

/-- The window that an expiry ends says in which state its bank is. -/
theorem State.opening_of_openDelayAt {s : State} {b : Fin 8} {n : Nat} (hs : (s.bank b).formed)
    (h : s.openDelayAt b = some n) : (s.bank b).state = .opening := by
  obtain ⟨_, hopen, _, _⟩ := hs
  obtain ⟨p, hp, _⟩ := Option.map_eq_some_iff.1 h
  exact hopen.1 (by rw [hp]; rfl)

theorem State.shutting_of_closeTimeAt {s : State} {b : Fin 8} {n : Nat} (hs : (s.bank b).formed)
    (h : s.closeTimeAt b = some n) : (s.bank b).state = .shutting := by
  obtain ⟨_, _, hclose, _⟩ := hs
  obtain ⟨p, hp, _⟩ := Option.map_eq_some_iff.1 h
  exact hclose.1 (by rw [hp]; rfl)

theorem State.bank_of_table {s t : State} (h : t.table = s.table) (b : Fin 8) :
    t.bank b = s.bank b := by
  unfold State.bank
  rw [h]

theorem reset_bank (s : State) (h : s.table = Table.reset) (b : Fin 8) : s.bank b = Bank.reset := by
  unfold State.bank
  rw [h]
  exact Vector.getElem_replicate b.isLt

theorem Bank.reset_formed : Bank.reset.formed := by
  simp [Bank.formed, Bank.reset]

/-- Every command keeps the entries formed. -/
theorem exec_keeps_formed {c : Instr} {s t : State} (h : exec c s = .next t)
    (hs : ∀ b : Fin 8, (s.bank b).formed) (b : Fin 8) : (t.bank b).formed := by
  cases hc : changesRows c
  case false => exact Bank.formed_of_keepsRow (exec_keepsRows h hc b) (hs b)
  revert b
  let P (x : State) := ∀ b : Fin 8, (x.bank b).formed
  suffices P t from this
  have ofTable {x y : State} (hx : P x) (e : y.table = x.table) : P y := fun b => by
    rw [State.bank_of_table e]
    exact hx b
  cases c <;> simp only [exec] at h
  case hardwareReset =>
    injection h with h
    subst h
    intro b
    rw [reset_bank _ rfl]
    exact Bank.reset_formed
  case openDelayExpiry b =>
    refine State.takeAt_keeps (P := P) h hs fun n hn => ?_
    have hopened := Bank.opened_formed (hs b) (State.opening_of_openDelayAt (hs b) hn)
    exact ofTable (State.setBank_formed (s := s.atAC n) (b := b) hs hopened) (by simp)
  case closeTimeExpiry b =>
    refine State.takeAt_keeps (P := P) h hs fun n hn => ?_
    have hclosed := Bank.closed_formed (hs b) (State.shutting_of_closeTimeAt (hs b) hn)
    exact ofTable (State.setBank_formed (s := s.atAC n) (b := b) hs hclosed) (by simp)
  case rowOpen =>
    refine State.takeAt_keeps (P := P) h hs fun n hn => ?_
    split
    · next b row e =>
      have hopening := Bank.opening_formed (hs b) (State.rowOpenTarget_some e).2 s.setup row n
      exact fun c => State.setBank_formed (s := s) hs hopening c
    · exact hs
  case rowShut =>
    refine State.takeAt_keeps (P := P) h hs fun n hn => ?_
    split
    · next b e =>
      have hshutting := Bank.shutting_formed (hs b) (State.shutTarget_opened e) s.setup n
      exact fun c => State.setBank_formed (s := s) hs hshutting c
    · exact hs
  all_goals simp [changesRows] at hc

/-! ### A resting array -/

/-- Every bank is CLOSED and the path is free or a procedure's. -/
def State.atRest (s : State) : Prop :=
  (∀ b : Fin 8, (s.bank b).state = .closed) ∧
    (s.sched.job = none ∨ s.sched.job = some .procedure)

theorem State.jobTarget_none {s : State} (h : s.sched.job = none ∨ s.sched.job = some .procedure) :
    s.jobTarget = none := by
  unfold State.jobTarget
  rcases h with e | e <;> rw [e]

/-- In a resting array the states of the banks do not change. -/
theorem exec_atRest_closed {c : Instr} {s t : State} (h : exec c s = .next t)
    (hc : c ≠ .hardwareReset) (hf : ∀ b : Fin 8, (s.bank b).formed) (hs : s.atRest) (b : Fin 8) :
    (t.bank b).state = .closed := by
  obtain ⟨hclosed, hjob⟩ := hs
  cases hr : changesRows c
  case false =>
    obtain ⟨hstate, _⟩ := exec_keepsRows h hr b
    rw [hstate]
    exact hclosed b
  suffices t = s by rw [this]; exact hclosed b
  cases c <;> simp only [exec] at h
  case hardwareReset => exact absurd rfl hc
  case openDelayExpiry b =>
    refine State.takeAt_keeps (P := (· = s)) h rfl fun n hn => ?_
    have := (hclosed b).symm.trans (State.opening_of_openDelayAt (hf b) hn)
    cases this
  case closeTimeExpiry b =>
    refine State.takeAt_keeps (P := (· = s)) h rfl fun n hn => ?_
    have := (hclosed b).symm.trans (State.shutting_of_closeTimeAt (hf b) hn)
    cases this
  case rowOpen =>
    refine State.takeAt_keeps (P := (· = s)) h rfl fun n hn => ?_
    split
    · next e =>
      have := (State.rowOpenTarget_some e).1
      rw [State.jobTarget_none hjob] at this
      cases this
    · rfl
  case rowShut =>
    refine State.takeAt_keeps (P := (· = s)) h rfl fun n hn => ?_
    split
    · next e =>
      have := (hclosed _).symm.trans (State.shutTarget_opened e)
      cases this
    · rfl
  all_goals simp [changesRows] at hr

/-- No job is granted in a resting array (R83). -/
theorem State.arbiterOpen_resting {s : State} (h : s.ctrl.arrayState.resting = true) :
    s.arbiterOpen = false := by
  by_contra hopen
  simp only [State.arbiterOpen, Bool.not_eq_false, Bool.and_eq_true, decide_eq_true_eq] at hopen
  obtain ⟨_, e | e | e⟩ := hopen <;> rw [e] at h <;> cases h

theorem State.writeBlock_none {s : State} (h : s.sched.job = none ∨ s.sched.job = some .procedure) :
    s.writeBlock = none := by
  unfold State.writeBlock State.recordBlock
  rcases h with e | e <;> simp [e]

/-- In a resting array the path stays free or a procedure's. -/
theorem exec_atRest_job {c : Instr} {s t : State} (h : exec c s = .next t)
    (hr : s.ctrl.arrayState.resting = true)
    (hs : s.sched.job = none ∨ s.sched.job = some .procedure) :
    t.sched.job = none ∨ t.sched.job = some .procedure := by
  cases hc : changesJob c
  case false =>
    rcases exec_jobStands h hc with e | e
    · rwa [e]
    · exact e
  suffices t = s by rwa [this]
  have harb := State.arbiterOpen_resting hr
  cases c <;> simp only [exec] at h
  case selection =>
    refine State.take_keeps (P := (· = s)) h rfl ?_
    simp [State.selectionGrant, harb]
  case recordBurstGrant =>
    refine State.take_keeps (P := (· = s)) h rfl ?_
    simp [State.burstGrant, harb]
  case shutClaimGrant =>
    refine State.take_keeps (P := (· = s)) h rfl ?_
    simp [State.shutGrant, harb]
  case captureChunkGrant =>
    refine State.take_keeps (P := (· = s)) h rfl ?_
    simp [State.urgentChunkGrant, State.normalChunkGrant, harb]
  case urgentRefreshGrant =>
    refine State.take_keeps (P := (· = s)) h rfl ?_
    simp [harb]
  case opportunisticRefreshGrant =>
    refine State.take_keeps (P := (· = s)) h rfl ?_
    simp [State.pullInGrant, harb]
  case writeBurst =>
    refine State.takeAt_keeps (P := (· = s)) h rfl fun n _ => ?_
    simp [State.dueWrite, State.writeBlock_none hs]
  all_goals simp [changesJob] at hc

/-- NAP_IN and RETAIN_IN are issued with every bank CLOSED (R65), and end the procedure's job. -/
theorem State.atRest_of_entry {s t : State} (hs : s.allClosed = true) (ht : t.table = s.table)
    (hj : t.sched.job = none) : t.atRest :=
  ⟨fun b => by rw [State.bank_of_table ht]; exact State.allClosed_iff.1 hs b, Or.inl hj⟩

theorem State.entryDue_allClosed {s : State} {d : Drain} (h : s.entryDue d = true) :
    s.allClosed = true := by
  simp only [State.entryDue, Bool.and_eq_true] at h
  exact h.1.1.2

/-- Every command keeps the Bank Table in agreement with the array state. -/
theorem exec_keeps_banksAgree {c : Instr} {s t : State} (h : exec c s = .next t)
    (hs : s.banksAgree) : t.banksAgree := by
  obtain ⟨hf, hrest⟩ := hs
  refine ⟨exec_keeps_formed h hf, fun ht => ?_⟩
  suffices t.atRest from this
  by_cases hc : c ≠ .napIn ∧ c ≠ .retainIn ∧ c ≠ .hardwareReset
  case pos =>
    have hr := exec_rest h hc ht
    exact ⟨exec_atRest_closed h hc.2.2 hf (hrest hr), exec_atRest_job h hr (hrest hr).2⟩
  cases c <;> simp only [exec] at h
  case napIn | retainIn =>
    suffices t.ctrl.arrayState.resting = true → t.atRest from this ht
    refine State.takeAt_keeps (P := fun x => x.ctrl.arrayState.resting = true → x.atRest) h hrest
      fun n hn _ => ?_
    simp only [State.napInAt, State.retainInAt, Option.ite_none_right_eq_some] at hn
    exact State.atRest_of_entry (State.entryDue_allClosed hn.1) rfl rfl
  case hardwareReset =>
    injection h with h
    subst h
    exact ⟨fun b => by rw [reset_bank _ rfl]; rfl, Or.inl rfl⟩
  all_goals exact absurd (by simp) hc

/-- Settles O58: every command keeps the entries formed, and the banks CLOSED in a resting array. -/
theorem banksStayFormedAtEveryStep : Obligations.BanksStayFormedAtEveryStep := by
  intro s t h hs
  exact step_keeps h hs (fun _ _ hx => hx) (fun _ _ hx => hx) (fun _ _ hx => hx)
    fun _ _ _ => exec_keeps_banksAgree

end Sys2Proof.Machine

/-! The Array Controller's parts (R101, R103, R139, R145, R164, R171, R174): how each of its operations
keeps them in agreement. -/

namespace Sys2Proof.Machine

/-! ### Agreement, with a name for each part of it -/

/-- The work beside which a restore may be due (R162, R177): none, a wake, what a SOFT_RESET stopped. -/
def Progress.awaitsRestore (p : Progress) : Bool :=
  match p with
  | .idle => true
  | .waking _ => true
  | .stopped _ => true
  | _ => false

/-- The Array Controller agrees with itself, with whether the refresh-period timer runs, whether a
procedure holds the path, and whether a SOFT_RESET is pending. -/
structure Ctrl.Agrees (c : Ctrl) (timer : Bool) (path soft : Prop) : Prop where
  work : c.progress.allowedIn c.arrayState
  shows : c.indication.agreesWith c.arrayState
  refresh : timer = c.arrayState.refreshRuns
  doze : c.dozeTimer.isSome = true → c.arrayState = .ready
  exit : c.exitHeld = true → c.arrayState = .retaining ∧ c.progress = .idle
  restore : c.restoreDue = true →
    (c.arrayState = .setting ∨ c.arrayState = .aligning) ∧ c.progress.awaitsRestore = true
  probe : c.probe.isSome = true → c.progress = .probing
  retain : c.progress.ofRetain = true → c.indication = .retainPending
  holds : c.progress.holdsPath = true → path ∨ (soft ∧ c.progress.runsThroughReset = false)
  shadow : alignMode (c.shadows.get 1) = false
  image : alignMode (c.loadImage.get 1) = false
  align : c.inAlignMode = true →
    (c.arrayState = .starting ∨ c.arrayState = .aligning) ∧ c.progress.inAlign = true

/-- What of the controller the agreement speaks of. -/
def Ctrl.view (c : Ctrl) : ArrayState × Indication × Progress × Option Nat × Bool × Bool × Bool ×
    Word × Word × Bool :=
  (c.arrayState, c.indication, c.progress, c.dozeTimer, c.exitHeld, c.restoreDue, c.probe.isSome,
    c.shadows.get 1, c.loadImage.get 1, c.inAlignMode)

/-- The agreement of the controller in a state. -/
abbrev State.ctrlAgrees (s : State) : Prop :=
  s.ctrl.Agrees s.refresh.timer.isSome (s.sched.job = some .procedure) (s.bus.softPending = true)

theorem Progress.awaitsRestore_iff {p : Progress} :
    p.awaitsRestore = true ↔
      p = .idle ∨ (∃ point, p = .waking point) ∨ ∃ loaded, p = .stopped loaded := by
  cases p <;> simp [Progress.awaitsRestore]

theorem State.waking_iff {s : State} :
    s.waking = true ↔ ∃ point, s.ctrl.progress = .waking point := by
  unfold State.waking
  split <;> simp_all

theorem State.controllerAgrees_iff {s : State} : s.controllerAgrees ↔ s.ctrlAgrees := by
  unfold State.controllerAgrees
  rw [State.waking_iff, ← Progress.awaitsRestore_iff]
  constructor
  · rintro ⟨work, shows, refresh, doze, exit, restore, probe, retain, holds, shadow, image, align⟩
    exact ⟨work, shows, refresh, doze, exit, restore, probe, retain, holds, shadow, image, align⟩
  · rintro ⟨work, shows, refresh, doze, exit, restore, probe, retain, holds, shadow, image, align⟩
    exact ⟨work, shows, refresh, doze, exit, restore, probe, retain, holds, shadow, image, align⟩

namespace Ctrl.Agrees

variable {c : Ctrl} {timer : Bool} {path soft : Prop}

theorem mono (h : c.Agrees timer path soft) {path' : Prop} (hp : path → path') :
    c.Agrees timer path' soft :=
  { h with holds := fun e => (h.holds e).imp_left hp }

/-- The agreement is about the parts of the view alone. -/
theorem of_view (h : c.Agrees timer path soft) {c' : Ctrl} (e : c'.view = c.view) :
    c'.Agrees timer path soft := by
  simp only [Ctrl.view, Prod.mk.injEq] at e
  obtain ⟨hstate, hind, hprog, hdoze, hexit, hrestore, hprobe, hshadow, himage, halign⟩ := e
  obtain ⟨work, shows, refresh, doze, exit, restore, probe, retain, holds, shadow, image, align⟩ := h
  constructor
  all_goals
    simp only [hstate, hind, hprog, hdoze, hexit, hrestore, hprobe, hshadow, himage, halign]
    assumption

/-- A busy controller has no exit held and no restore due. -/
theorem busy (h : c.Agrees timer path soft) (hb : c.progress.awaitsRestore = false) :
    c.exitHeld = false ∧ c.restoreDue = false := by
  constructor
  · by_contra e
    have := (h.exit (by simpa using e)).2
    rw [this] at hb
    cases hb
  · by_contra e
    have := (h.restore (by simpa using e)).2
    rw [this] at hb
    cases hb

theorem no_probe (h : c.Agrees timer path soft) (hp : c.progress ≠ .probing) : c.probe = none := by
  by_contra e
  exact hp (h.probe (Option.isSome_iff_ne_none.2 e))

theorem not_inAlignMode (h : c.Agrees timer path soft) (hp : c.progress.inAlign = false) :
    c.inAlignMode = false := by
  by_contra e
  have := (h.align (by simpa using e)).2
  rw [this] at hp
  cases hp

/-- A busy controller goes on to its next work in the same array state. -/
theorem move (h : c.Agrees timer path soft) (hb : c.progress.awaitsRestore = false) {p : Progress}
    (hwork : p.allowedIn c.arrayState) (hprobe : c.probe = none ∨ p = .probing)
    (hretain : p.ofRetain = true → c.indication = .retainPending)
    (hpath : p.holdsPath = true → path ∨ (soft ∧ p.runsThroughReset = false))
    (halign : c.inAlignMode = true → p.inAlign = true) :
    Ctrl.Agrees { c with progress := p } timer path soft := by
  obtain ⟨hexit, hrestore⟩ := h.busy hb
  exact {
    work := hwork
    shows := h.shows
    refresh := h.refresh
    doze := h.doze
    exit := fun e => by rw [hexit] at e; cases e
    restore := fun e => by rw [hrestore] at e; cases e
    probe := fun e => by
      rcases hprobe with hn | hn
      · rw [hn] at e; cases e
      · exact hn
    retain := hretain
    holds := hpath
    shadow := h.shadow
    image := h.image
    align := fun e => ⟨(h.align e).1, halign e⟩ }

/-- A busy controller's work ends in READY. -/
theorem ready (h : c.Agrees timer path soft) (hb : c.progress.awaitsRestore = false)
    (hprobe : c.probe = none) (halign : c.inAlignMode = false) (d : Option Nat) (path' : Prop) :
    Ctrl.Agrees { c with
      arrayState := .ready, indication := .none, progress := .idle, dozeTimer := d }
      true path' soft := by
  obtain ⟨hexit, hrestore⟩ := h.busy hb
  exact {
    work := trivial
    shows := by simp [Indication.agreesWith]
    refresh := rfl
    doze := fun _ => rfl
    exit := fun e => by rw [hexit] at e; cases e
    restore := fun e => by rw [hrestore] at e; cases e
    probe := fun e => by rw [hprobe] at e; cases e
    retain := fun e => by cases e
    holds := fun e => by cases e
    shadow := h.shadow
    image := h.image
    align := fun e => by rw [show c.inAlignMode = true from e] at halign; cases halign }

/-- The doze idle timer may change in READY. -/
theorem withDoze (h : c.Agrees timer path soft) {d : Option Nat}
    (hd : d.isSome = true → c.arrayState = .ready) :
    Ctrl.Agrees { c with dozeTimer := d } timer path soft :=
  { h with doze := hd }

/-- A wake begins in DOZING (R169). -/
theorem wake (h : c.Agrees timer path soft) (hd : c.arrayState = .dozing) (point : Nat)
    {path' : Prop} (hpath : path') :
    Ctrl.Agrees { c with clockEnable := true, progress := .waking point } timer path' soft := by
  have hprobe : c.probe = none := by
    refine h.no_probe fun e => ?_
    have hw := h.work
    rw [e, hd] at hw
    simp [Progress.allowedIn] at hw
  exact { h with
    work := Or.inl hd
    exit := fun e => by
      have := (h.exit e).1
      rw [hd] at this
      cases this
    restore := fun e => ⟨(h.restore e).1, rfl⟩
    probe := fun e => by simp [hprobe] at e
    retain := fun e => by cases e
    holds := fun _ => Or.inl hpath
    align := fun e => by
      have := (h.align e).1
      simp [hd] at this }

/-- The work of a controller that is not busy with the path ends. -/
theorem idle (h : c.Agrees timer path soft) (hp : c.probe = none) (path' : Prop) (soft' : Prop) :
    Ctrl.Agrees { c with progress := .idle } timer path' soft' :=
  { h with
    work := trivial
    exit := fun e => ⟨(h.exit e).1, rfl⟩
    restore := fun e => ⟨(h.restore e).1, rfl⟩
    probe := fun e => by rw [hp] at e; cases e
    retain := fun e => by cases e
    holds := fun e => by cases e
    align := fun e => ⟨(h.align e).1, rfl⟩ }

end Ctrl.Agrees

/-! ### Wake causes -/

section
variable {s : State}

theorem State.issue_ctrlAgrees (h : s.ctrlAgrees) (op : ArrayOp) (t : Nat) :
    (s.issue op t).ctrlAgrees := by
  refine Ctrl.Agrees.withDoze h ?_
  split
  · next e => exact fun _ => e
  · exact h.doze

theorem State.dozeEntry_home (h : s.ctrlAgrees) (hd : s.dozeEntry = true) :
    s.ctrl.arrayState = .ready ∧ s.ctrl.progress ≠ .probing := by
  have hw := h.work
  unfold State.dozeEntry at hd
  split at hd
  · next e => simp_all [Progress.allowedIn, Drain.home]
  · next e => simp_all [Progress.allowedIn, Drain.home]
  · next e => simp_all [Progress.allowedIn, Drain.home]
  · cases hd

theorem State.abandonDoze_ctrlAgrees (h : s.ctrlAgrees) (hd : s.dozeEntry = true) :
    s.abandonDoze.ctrlAgrees := by
  obtain ⟨hready, hprobe⟩ := State.dozeEntry_home h hd
  exact (h.idle (h.no_probe hprobe) _ _).withDoze fun _ => hready

theorem State.beginWake_ctrlAgrees (h : s.ctrlAgrees) (hd : s.ctrl.arrayState = .dozing) :
    s.beginWake.ctrlAgrees :=
  (State.issue_ctrlAgrees h .napOut s.issuePoint).wake hd _ rfl

theorem State.wakeCause_ctrlAgrees (h : s.ctrlAgrees) : s.wakeCause.ctrlAgrees := by
  unfold State.wakeCause
  split
  · next hd =>
    split
    · exact h
    · exact State.beginWake_ctrlAgrees h hd
  · split
    · next hd => exact State.abandonDoze_ctrlAgrees h hd
    · exact h

theorem State.demandCause_ctrlAgrees (h : s.ctrlAgrees) : s.demandCause.ctrlAgrees := by
  unfold State.demandCause
  split
  · exact State.wakeCause_ctrlAgrees h
  · exact h

theorem State.suspendForRefresh_ctrlAgrees (h : s.ctrlAgrees) : s.suspendForRefresh.ctrlAgrees := by
  unfold State.suspendForRefresh
  split
  · next hc =>
    simp only [Bool.and_eq_true, decide_eq_true_eq, Option.isNone_iff_eq_none] at hc
    obtain ⟨⟨⟨hp, hprobe⟩, _⟩, ha⟩ := hc
    have hpath := h.holds (by rw [hp]; rfl)
    refine h.move (by rw [hp]; rfl) ha (Or.inl hprobe) (fun e => by cases e)
      (fun _ => hpath.imp_right fun e => ⟨e.1, rfl⟩) fun _ => rfl
  · exact h

theorem State.urgentCause_ctrlAgrees (h : s.ctrlAgrees) : s.urgentCause.ctrlAgrees := by
  unfold State.urgentCause
  refine State.suspendForRefresh_ctrlAgrees ?_
  split
  · exact State.wakeCause_ctrlAgrees h
  · exact h

/-! ### Procedures by themselves -/

theorem State.enterReady_ctrlAgrees (h : s.ctrlAgrees) (hb : s.ctrl.progress.awaitsRestore = false)
    (hp : s.ctrl.progress ≠ .probing) (ha : s.ctrl.progress.inAlign = false)
    (ht : s.refresh.timer.isSome = true) : s.enterReady.ctrlAgrees := by
  have hready := h.ready hb (h.no_probe hp) (h.not_inAlignMode ha) (s.dozeStart s.now)
    ((none : Option Job) = some .procedure)
  unfold State.ctrlAgrees
  simp only [State.enterReady, ht]
  exact hready

theorem State.lookAtRefresh_ctrlAgrees (h : s.ctrlAgrees) : s.lookAtRefresh.ctrlAgrees := by
  unfold State.lookAtRefresh
  split
  · next d e =>
    split
    · have hwork := h.work
      have hretain := h.retain
      have hpath := h.holds (by rw [e]; rfl)
      rw [e] at hwork hretain
      refine h.move (by rw [e]; rfl) ?_ (Or.inl (h.no_probe (by simp [e]))) ?_ ?_ ?_
      · split
        · next hc => exact ⟨hwork, by simpa using (Bool.and_eq_true_iff.1 hc).2⟩
        · exact Or.inl hwork
      · intro hr
        refine hretain ?_
        cases d <;> split at hr <;> simp_all [Progress.ofRetain]
      · intro _
        refine hpath.imp_right fun hs => ⟨hs.1, ?_⟩
        split <;> rfl
      · intro ha
        have := h.not_inAlignMode (by rw [e]; rfl)
        rw [this] at ha
        cases ha
    · exact h
  · exact h

theorem State.endSetModeIfNothingToLoad_ctrlAgrees (h : s.ctrlAgrees) :
    s.endSetModeIfNothingToLoad.ctrlAgrees := by
  unfold State.endSetModeIfNothingToLoad
  split
  · next hc =>
    simp only [Bool.and_eq_true, decide_eq_true_eq] at hc
    have e : s.ctrl.progress = .due .setMode := hc.1.1.1.1.1
    have hwork := h.work
    rw [e] at hwork
    have ha : s.ctrl.arrayState = .setting := by simpa [Progress.allowedIn, Drain.home] using hwork
    refine State.enterReady_ctrlAgrees (s := s) h ?_ ?_ ?_ ?_
    · rw [e]; rfl
    · simp [e]
    · rw [e]; rfl
    · rw [h.refresh, ha]; rfl
  · exact h

theorem State.endRestore_ctrlAgrees (h : s.ctrlAgrees) : s.endRestore.ctrlAgrees := by
  unfold State.endRestore
  split
  · next settle e =>
    split
    · have hwork := h.work
      rw [e] at hwork
      refine State.enterReady_ctrlAgrees h ?_ ?_ ?_ ?_
      · rw [e]; rfl
      · simp [e]
      · rw [e]; rfl
      · rw [h.refresh]
        rcases hwork with ha | ha <;> rw [ha] <;> rfl
    · exact h
  · exact h

theorem State.proceed_ctrlAgrees (h : s.ctrlAgrees) : s.proceed.ctrlAgrees :=
  State.endRestore_ctrlAgrees
    (State.endSetModeIfNothingToLoad_ctrlAgrees (State.lookAtRefresh_ctrlAgrees h))

/-- The start-up ends, or the exit sequence: the refresh-period timer starts with READY (R143, R175). -/
theorem State.timerAndReady_ctrlAgrees (h : s.ctrlAgrees)
    (hb : s.ctrl.progress.awaitsRestore = false) (hp : s.ctrl.progress ≠ .probing)
    (ha : s.ctrl.progress.inAlign = false) :
    s.endStartUp.ctrlAgrees ∧ s.endRetainExit.ctrlAgrees :=
  have hready (d : Option Nat) := h.ready hb (h.no_probe hp) (h.not_inAlignMode ha) d
    ((none : Option Job) = some .procedure)
  ⟨hready _, hready _⟩

theorem State.loadsSettled_ctrlAgrees (h : s.ctrlAgrees) (e : s.ctrl.progress = .loading) :
    s.loadsSettled.ctrlAgrees := by
  have hwork := h.work
  rw [e] at hwork
  have hpath := h.holds (by rw [e]; rfl)
  unfold State.loadsSettled
  split
  · next ha =>
    refine h.move (by rw [e]; rfl) ha (Or.inl (h.no_probe (by simp [e]))) (fun hr => by cases hr)
      (fun _ => hpath.imp_right fun hs => ⟨hs.1, rfl⟩) fun hm => ?_
    have := h.not_inAlignMode (by rw [e]; rfl)
    rw [this] at hm
    cases hm
  · next ha =>
    refine State.enterReady_ctrlAgrees (s := s) h ?_ ?_ ?_ ?_
    · rw [e]; rfl
    · simp [e]
    · rw [e]; rfl
    · rw [h.refresh, hwork.resolve_left ha]; rfl

theorem State.endAlignment_ctrlAgrees (h : s.ctrlAgrees) (e : s.ctrl.progress = .endSettle) :
    s.endAlignment.ctrlAgrees := by
  have hwork := h.work
  rw [e] at hwork
  have hb : s.ctrl.progress.awaitsRestore = false := by rw [e]; rfl
  have hp : s.ctrl.progress ≠ .probing := by simp [e]
  have hm : s.ctrl.progress.inAlign = false := by rw [e]; rfl
  unfold State.endAlignment
  dsimp only
  split
  · exact (State.timerAndReady_ctrlAgrees (s := s.raiseEvent .alignDone) h hb hp hm).1
  · next ha =>
    refine State.enterReady_ctrlAgrees (s := s.raiseEvent .alignDone) h hb hp hm ?_
    rw [show (s.raiseEvent .alignDone).refresh = s.refresh from rfl, h.refresh,
      hwork.resolve_left ha]
    rfl

theorem State.afterSettle_ctrlAgrees (h : s.ctrlAgrees) : s.afterSettle.ctrlAgrees := by
  have hwork := h.work
  have hholds := h.holds
  unfold State.afterSettle
  split
  · next e =>
    split
    · exact State.loadsSettled_ctrlAgrees h e
    · exact h
  · next e =>
    rw [e] at hwork hholds
    have hm := h.not_inAlignMode (by rw [e]; rfl)
    refine h.move (by rw [e]; rfl) ?_ (Or.inl (h.no_probe (by simp [e]))) ?_ ?_ ?_
    · split <;> exact hwork
    · split <;> exact fun hr => by cases hr
    · refine fun _ => (hholds rfl).imp_right fun hs => ⟨hs.1, ?_⟩
      split <;> rfl
    · intro hx
      rw [hm] at hx
      cases hx
  · next e =>
    rw [e] at hwork hholds
    refine State.suspendForRefresh_ctrlAgrees ?_
    have hprobing := h.move (p := .probing) (by rw [e]; rfl) (Or.inr hwork) (Or.inr rfl)
      (fun hr => by cases hr) (fun _ => (hholds rfl).imp_right fun hs => ⟨hs.1, rfl⟩) fun _ => rfl
    exact hprobing.of_view rfl
  · next e => exact State.endAlignment_ctrlAgrees h e
  · next e =>
    exact (State.timerAndReady_ctrlAgrees h (by rw [e]; rfl) (by simp [e]) (by rw [e]; rfl)).2
  · exact State.proceed_ctrlAgrees h

end

end Sys2Proof.Machine

/-! The Array Controller's parts at the commands, the mode loads and the resets (R101, R145, R148, R153,
R162, R171, R174, R191), and the invariant at every step. -/

namespace Sys2Proof.Machine

/-! ### Mode loads -/

theorem alignMode_clear (v : Word) : alignMode (v &&& ~~~alignModeMask) = false := by
  simp [alignMode, alignModeMask]

/-- Align mode after a MODE_LOAD is that of the loaded word, if it is M1 (R14). -/
theorem State.loadMode_inAlignMode (s : State) (word : Fin 4) (v : Word) (t : Nat) :
    (s.loadMode word v t).ctrl.inAlignMode =
      if word = 1 then alignMode v else s.ctrl.inAlignMode := by
  by_cases hw : word = 1
  · subst hw
    simp [State.loadMode, Ctrl.inAlignMode, Vector.get_eq_getElem]
  · rw [if_neg hw]
    have hv : word.val ≠ 1 := fun e => hw (Fin.ext e)
    simp [State.loadMode, Ctrl.inAlignMode, Vector.get_eq_getElem, Vector.getElem_set_ne, hv]

theorem State.loadMode_shadow (s : State) (word : Fin 4) (v : Word) (t : Nat) :
    (s.loadMode word v t).ctrl.shadows.get 1 = s.ctrl.shadows.get 1 := by
  unfold State.loadMode
  dsimp only
  split
  · simp [Vector.get_eq_getElem]
  · rfl

/-- A MODE_LOAD takes a busy controller to its next work. -/
theorem State.load_ctrlAgrees {s : State} (h : s.ctrlAgrees)
    (hb : s.ctrl.progress.awaitsRestore = false) (hprobe : s.ctrl.probe = none) {next : Progress}
    (hwork : next.allowedIn s.ctrl.arrayState) (hretain : next.ofRetain = false)
    (hjob : s.sched.job = some .procedure ∨
      (s.bus.softPending = true ∧ next.runsThroughReset = false)) {word : Fin 4} {v : Word}
    (halign : (if word = 1 then alignMode v else s.ctrl.inAlignMode) = true →
      (s.ctrl.arrayState = .starting ∨ s.ctrl.arrayState = .aligning) ∧ next.inAlign = true)
    (t : Nat) (words : List (Fin 4)) :
    State.ctrlAgrees { s.loadMode word v t with
      ctrl.progress := next, ctrl.loadWords := words } := by
  obtain ⟨hexit, hrestore⟩ := h.busy hb
  exact {
    work := hwork
    shows := h.shows
    refresh := h.refresh
    doze := (State.issue_ctrlAgrees h (.modeLoad word v) t).doze
    exit := fun e => by rw [show s.ctrl.exitHeld = true from e] at hexit; cases hexit
    restore := fun e => by rw [show s.ctrl.restoreDue = true from e] at hrestore; cases hrestore
    probe := fun e => by
      have hsome : s.ctrl.probe.isSome = true := e
      rw [hprobe] at hsome
      cases hsome
    retain := fun e => by rw [show next.ofRetain = true from e] at hretain; cases hretain
    holds := fun _ => hjob
    shadow := (congrArg alignMode (s.loadMode_shadow word v t)).trans h.shadow
    image := h.image
    align := fun e => halign ((s.loadMode_inAlignMode word v t) ▸ e) }

/-- The value that is loaded from the image into M1 has align mode clear (R142, R148). -/
theorem Ctrl.imageValue_align {c : Ctrl} (h : alignMode (c.loadImage.get 1) = false) :
    alignMode (c.imageValue 1) = false := by
  unfold Ctrl.imageValue
  dsimp only
  split
  · exact alignMode_clear _
  · exact h

/-- What is known of the controller when a MODE_LOAD is due: who holds the path, and what the load and
the work after it leave of align mode. -/
structure State.LoadDue (s : State) (word : Fin 4) (v : Word) (next : Progress) : Prop where
  job : s.sched.job = some .procedure
  busy : s.ctrl.progress.awaitsRestore = false
  notProbing : s.ctrl.progress ≠ .probing
  work : next.allowedIn s.ctrl.arrayState
  retain : next.ofRetain = false
  align : (if word = 1 then alignMode v else s.ctrl.inAlignMode) = true →
    (s.ctrl.arrayState = .starting ∨ s.ctrl.arrayState = .aligning) ∧ next.inAlign = true

theorem State.loadDue_of_dueLoad {s : State} (h : s.ctrlAgrees) {word : Fin 4} {v : Word}
    {next : Progress} (hd : s.dueLoad = some (word, v, next)) : s.LoadDue word v next := by
  have hwork := h.work
  have hmode := h.align
  unfold State.dueLoad at hd
  split at hd
  case isFalse => cases hd
  next hc =>
  simp only [Bool.and_eq_true, decide_eq_true_eq] at hc
  have hjob := hc.1.1
  -- a word of the load list, from the image
  have fromImage (i : Fin 4) (hb : s.ctrl.progress.awaitsRestore = false)
      (hp : s.ctrl.progress ≠ .probing) (hm : s.ctrl.progress.inAlign = false)
      (hw : Progress.loading.allowedIn s.ctrl.arrayState) :
      s.LoadDue i (s.ctrl.imageValue i) .loading := by
    refine ⟨hjob, hb, hp, hw, rfl, fun e => ?_⟩
    rw [h.not_inAlignMode hm] at e
    split at e
    · next hi =>
      rw [hi, Ctrl.imageValue_align h.image] at e
      cases e
    · cases e
  have setsAlign (x : Word) (p : Progress) (hb : s.ctrl.progress.awaitsRestore = false)
      (hp : s.ctrl.progress ≠ .probing)
      (hs : s.ctrl.arrayState = .starting ∨ s.ctrl.arrayState = .aligning)
      (hw : p.allowedIn s.ctrl.arrayState) (hr : p.ofRetain = false) (hi : p.inAlign = true) :
      s.LoadDue 1 x p :=
    ⟨hjob, hb, hp, hw, hr, fun _ => ⟨hs, hi⟩⟩
  have clearsAlign (x : Word) (p : Progress) (hb : s.ctrl.progress.awaitsRestore = false)
      (hp : s.ctrl.progress ≠ .probing) (hw : p.allowedIn s.ctrl.arrayState)
      (hr : p.ofRetain = false) : s.LoadDue 1 (x &&& ~~~alignModeMask) p :=
    ⟨hjob, hb, hp, hw, hr, fun e => by simp [alignMode_clear] at e⟩
  split at hd
  case h_1 e =>
    rw [e] at hwork
    split at hd <;> cases hd
    exact fromImage _ (by rw [e]; rfl) (by simp [e]) (by rw [e]; rfl) hwork
  case h_2 e =>
    rw [e] at hwork
    split at hd
    · split at hd <;> cases hd
      exact fromImage _ (by rw [e]; rfl) (by simp [e]) (by rw [e]; rfl)
        (Or.inr (by simpa [Progress.allowedIn, Drain.home] using hwork))
    · cases hd
  case h_3 e =>
    rw [e] at hwork
    obtain ⟨x, _, hx⟩ := Option.map_eq_some_iff.1 hd
    cases hx
    have hs : s.ctrl.arrayState = .starting ∨ s.ctrl.arrayState = .aligning := by
      rcases hwork with hw | hw
      · exact Or.inr hw
      · exact Or.inl hw.2
    exact setsAlign _ _ (by rw [e]; rfl) (by simp [e]) hs hs rfl rfl
  case h_4 e =>
    rw [e] at hwork
    split at hd
    · obtain ⟨x, _, hx⟩ := Option.map_eq_some_iff.1 hd
      cases hx
      exact setsAlign _ _ (by rw [e]; rfl) (by simp [e]) (Or.inr hwork) (Or.inr hwork) rfl rfl
    · cases hd
  case h_5 e =>
    rw [e] at hwork
    obtain ⟨x, _, hx⟩ := Option.map_eq_some_iff.1 hd
    cases hx
    exact clearsAlign _ _ (by rw [e]; rfl) (by simp [e]) hwork rfl
  case h_6 e =>
    rw [e] at hwork
    split at hd
    · obtain ⟨x, _, hx⟩ := Option.map_eq_some_iff.1 hd
      cases hx
      exact setsAlign _ _ (by rw [e]; rfl) (by simp [e]) (Or.inr hwork) hwork rfl rfl
    · cases hd
  case h_7 e =>
    rw [e] at hwork
    obtain ⟨x, _, hx⟩ := Option.map_eq_some_iff.1 hd
    cases hx
    exact clearsAlign _ _ (by rw [e]; rfl) (by simp [e]) hwork rfl
  case h_8 e =>
    rw [e] at hwork
    obtain ⟨x, _, hx⟩ := Option.map_eq_some_iff.1 hd
    cases hx
    refine ⟨hjob, by rw [e]; rfl, by simp [e], hwork, rfl, fun hm => ?_⟩
    rw [if_neg (by decide), h.not_inAlignMode (by rw [e]; rfl)] at hm
    cases hm
  case h_9 e =>
    rw [e] at hwork
    obtain ⟨x, _, hx⟩ := Option.map_eq_some_iff.1 hd
    cases hx
    exact clearsAlign _ _ (by rw [e]; rfl) (by simp [e]) hwork rfl
  case h_10 => cases hd

/-- The MODE_LOAD that is due keeps the agreement, with its next work. -/
theorem State.dueLoad_ctrlAgrees {s : State} (h : s.ctrlAgrees) {word : Fin 4} {v : Word}
    {next : Progress} (hd : s.dueLoad = some (word, v, next)) (t : Nat) (words : List (Fin 4)) :
    State.ctrlAgrees { s.loadMode word v t with
      ctrl.progress := next, ctrl.loadWords := words } := by
  have hl := State.loadDue_of_dueLoad h hd
  exact State.load_ctrlAgrees h hl.busy (h.no_probe hl.notProbing) hl.work hl.retain
    (Or.inl hl.job) hl.align t words

theorem State.lockRestartStep_ctrlAgrees {s : State} (h : s.ctrlAgrees) {point : Nat} {changed : Bool}
    (e : s.ctrl.progress = .exitTime point changed) : s.lockRestartStep.ctrlAgrees := by
  have hwork := h.work
  have hpath := h.holds (by rw [e]; rfl)
  have hm := h.not_inAlignMode (by rw [e]; rfl)
  rw [e] at hwork hpath
  have hu : State.ctrlAgrees { s with ctrl.progress := .exitLoad } := by
    refine h.move (p := .exitLoad) (by rw [e]; rfl) hwork (Or.inl (h.no_probe (by simp [e])))
      (fun hr => by cases hr) (fun _ => hpath) fun hx => ?_
    rw [hm] at hx
    cases hx
  unfold State.lockRestartStep
  dsimp only
  split
  · next hd => exact State.dueLoad_ctrlAgrees hu hd s.now s.ctrl.loadWords
  · exact hu

/-! ### The procedure commands -/

/-- In READY and DOZING nothing of an exit, a restore or an alignment is left. -/
theorem Ctrl.Agrees.quiet {c : Ctrl} {timer : Bool} {path soft : Prop} (h : c.Agrees timer path soft)
    (hs : c.arrayState = .ready ∨ c.arrayState = .dozing) :
    c.exitHeld = false ∧ c.restoreDue = false ∧ c.probe = none ∧ c.inAlignMode = false ∧
      timer = true := by
  refine ⟨?_, ?_, ?_, ?_, ?_⟩
  · by_contra e
    have := (h.exit (by simpa using e)).1
    rw [this] at hs
    simp at hs
  · by_contra e
    rcases (h.restore (by simpa using e)).1 with ha | ha <;> simp [ha] at hs
  · refine h.no_probe fun e => ?_
    have hw := h.work
    rw [e] at hw
    rcases hw with ha | ha <;> simp [ha] at hs
  · by_contra e
    rcases (h.align (by simpa using e)).1 with ha | ha <;> simp [ha] at hs
  · rw [h.refresh]
    rcases hs with ha | ha <;> rw [ha] <;> rfl

/-- With nothing of an exit, a restore, a probe or align mode left, the controller takes up a drain
claim, a wake or no work: `c'` has its state, its indication and its work. -/
theorem Ctrl.Agrees.takeUp {c c' : Ctrl} {timer : Bool} {path path' soft : Prop}
    (h : c.Agrees timer path soft)
    (hquiet : c.exitHeld = false ∧ c.restoreDue = false ∧ c.probe = none ∧ c.inAlignMode = false ∧
      timer = true)
    (hkept : c'.exitHeld = c.exitHeld ∧ c'.restoreDue = c.restoreDue ∧ c'.probe = c.probe ∧
      c'.shadows = c.shadows ∧ c'.copies = c.copies)
    (himage : alignMode (c'.loadImage.get 1) = false)
    (hwork : c'.progress.allowedIn c'.arrayState)
    (hpath : c'.progress.holdsPath = true → path')
    (hretain : c'.progress.ofRetain = true → c'.indication = .retainPending)
    (hshows : c'.indication.agreesWith c'.arrayState) (hrefresh : c'.arrayState.refreshRuns = true)
    (hdoze : c'.dozeTimer.isSome = true → c'.arrayState = .ready) : c'.Agrees timer path' soft := by
  obtain ⟨hexit, hrestore, hprobe, halign, htimer⟩ := hquiet
  obtain ⟨kexit, krestore, kprobe, kshadows, kcopies⟩ := hkept
  exact {
    work := hwork
    shows := hshows
    refresh := by rw [htimer, hrefresh]
    doze := hdoze
    exit := fun e => by rw [kexit, hexit] at e; cases e
    restore := fun e => by rw [krestore, hrestore] at e; cases e
    probe := fun e => by rw [kprobe, hprobe] at e; cases e
    retain := hretain
    holds := fun e => Or.inl (hpath e)
    shadow := by rw [kshadows]; exact h.shadow
    image := himage
    align := fun e => by
      unfold Ctrl.inAlignMode at e halign
      rw [kcopies, halign] at e
      cases e }

theorem State.wakeCause_waking {s : State} (hd : s.ctrl.arrayState = .dozing) :
    s.wakeCause.waking = true := by
  unfold State.wakeCause
  rw [if_pos hd]
  split
  · assumption
  · rfl

/-- What asking for the array leads to (R148, R153, R171): in READY the drain claim, in DOZING a wake that
holds the path. -/
theorem State.askForArray_spec {s : State} (h : s.ctrlAgrees)
    (hs : s.ctrl.arrayState = .ready ∨ s.ctrl.arrayState = .dozing) (d : Drain) :
    ∃ u : State, u.ctrlAgrees ∧ u.ctrl.arrayState = s.ctrl.arrayState ∧
      ((s.ctrl.arrayState = .ready ∧
        s.askForArray d = { u with ctrl.progress := .draining d }) ∨
      (s.ctrl.arrayState = .dozing ∧ s.askForArray d = u ∧
        (∃ p, u.ctrl.progress = .waking p) ∧ u.sched.job = some .procedure)) := by
  have hu := State.wakeCause_ctrlAgrees h
  refine ⟨s.wakeCause, hu, s.wakeCause_arrayState, ?_⟩
  rcases hs with ha | ha
  · refine Or.inl ⟨ha, ?_⟩
    simp [State.askForArray, ha]
  · obtain ⟨p, hp⟩ := State.waking_iff.1 (State.wakeCause_waking ha)
    refine Or.inr ⟨ha, by simp [State.askForArray, ha], ⟨p, hp⟩, ?_⟩
    rcases hu.holds (by rw [hp]; rfl) with hj | ⟨_, hr⟩
    · exact hj
    · rw [hp] at hr
      cases hr

/-- A procedure command keeps the agreement: `t` is the state after asking for the array with the
procedure's own fields of the controller changed. -/
theorem State.procedure_ctrlAgrees {s : State} (h : s.ctrlAgrees)
    (hs : s.ctrl.arrayState = .ready ∨ s.ctrl.arrayState = .dozing) (d : Drain) {t : State}
    (hkept : t.refresh = (s.askForArray d).refresh ∧ t.sched = (s.askForArray d).sched ∧
      t.bus = (s.askForArray d).bus ∧ t.ctrl.progress = (s.askForArray d).ctrl.progress ∧
      t.ctrl.exitHeld = (s.askForArray d).ctrl.exitHeld ∧
      t.ctrl.restoreDue = (s.askForArray d).ctrl.restoreDue ∧
      t.ctrl.probe = (s.askForArray d).ctrl.probe ∧
      t.ctrl.shadows = (s.askForArray d).ctrl.shadows ∧
      t.ctrl.copies = (s.askForArray d).ctrl.copies)
    (himage : alignMode (t.ctrl.loadImage.get 1) = false)
    (hready : s.ctrl.arrayState = .ready → t.ctrl.arrayState = d.home)
    (hdozing : s.ctrl.arrayState = .dozing → t.ctrl.arrayState = .dozing ∨
      t.ctrl.arrayState = .setting ∨ t.ctrl.arrayState = .aligning)
    (hretain : d = .retain → t.ctrl.indication = .retainPending)
    (hshows : t.ctrl.indication.agreesWith t.ctrl.arrayState)
    (hrefresh : t.ctrl.arrayState.refreshRuns = true)
    (hdoze : t.ctrl.dozeTimer.isSome = true → t.ctrl.arrayState = .ready) : t.ctrlAgrees := by
  obtain ⟨u, hu, hustate, hcase⟩ := State.askForArray_spec h hs d
  obtain ⟨krefresh, ksched, kbus, kprogress, kctrl⟩ := hkept
  have hus : u.ctrl.arrayState = .ready ∨ u.ctrl.arrayState = .dozing := by rwa [hustate]
  unfold State.ctrlAgrees
  rw [krefresh, ksched, kbus]
  rcases hcase with ⟨ha, e⟩ | ⟨ha, e, hp, hj⟩
  · rw [e] at kctrl kprogress ⊢
    refine Ctrl.Agrees.takeUp hu (hu.quiet hus) kctrl himage ?_ ?_ ?_ hshows hrefresh hdoze
    · rw [kprogress]
      exact hready ha
    · rw [kprogress]
      intro hp
      cases hp
    · rw [kprogress]
      intro hr
      refine hretain ?_
      cases d <;> first | rfl | cases hr
  · rw [e] at kctrl kprogress ⊢
    obtain ⟨p, hp⟩ := hp
    refine Ctrl.Agrees.takeUp hu (hu.quiet hus) kctrl himage ?_ (fun _ => hj) ?_ hshows hrefresh hdoze
    · rw [kprogress, hp]
      exact hdozing ha
    · rw [kprogress, hp]
      intro hr
      cases hr

theorem State.setMode_ctrlAgrees {s : State} (h : s.ctrlAgrees)
    (hs : s.ctrl.arrayState = .ready ∨ s.ctrl.arrayState = .dozing) : s.setMode.ctrlAgrees := by
  let u : State := { s with setup := s.setup.loadWorking }
  have hu : u.ctrlAgrees := h
  exact State.procedure_ctrlAgrees hu hs .setMode
    ⟨rfl, rfl, rfl, rfl, rfl, rfl, rfl, rfl, rfl⟩ h.shadow (fun _ => rfl) (fun _ => Or.inr (Or.inl rfl))
    (fun e => by cases e) (by simp [Indication.agreesWith, State.setMode]) rfl (fun e => by cases e)

theorem State.startAlign_ctrlAgrees {s : State} (h : s.ctrlAgrees)
    (hs : s.ctrl.arrayState = .ready ∨ s.ctrl.arrayState = .dozing) : s.startAlign.ctrlAgrees := by
  have himage : alignMode (s.startAlign.ctrl.loadImage.get 1) = false := by
    obtain ⟨u, hu, _, ⟨_, e⟩ | ⟨_, e, _⟩⟩ := State.askForArray_spec h hs .align <;>
    · show alignMode ((s.askForArray .align).ctrl.loadImage.get 1) = false
      rw [e]
      exact hu.image
  exact State.procedure_ctrlAgrees h hs .align
    ⟨rfl, rfl, rfl, rfl, rfl, rfl, rfl, rfl, rfl⟩ himage (fun _ => rfl) (fun _ => Or.inr (Or.inr rfl))
    (fun e => by cases e) (by simp [Indication.agreesWith, State.startAlign]) rfl
    (fun e => by cases e)

theorem State.retainEnter_ctrlAgrees {s : State} (h : s.ctrlAgrees)
    (hs : s.ctrl.arrayState = .ready ∨ s.ctrl.arrayState = .dozing) :
    State.ctrlAgrees { s.askForArray .retain with ctrl.indication := .retainPending } := by
  obtain ⟨u, hu, hstate, hcase⟩ := State.askForArray_spec h hs .retain
  have hfields : (s.askForArray .retain).ctrl.loadImage = u.ctrl.loadImage ∧
      (s.askForArray .retain).ctrl.dozeTimer = u.ctrl.dozeTimer := by
    rcases hcase with ⟨_, e⟩ | ⟨_, e, _⟩ <;> rw [e] <;> exact ⟨rfl, rfl⟩
  have hask := s.askForArray_arrayState .retain
  refine State.procedure_ctrlAgrees h hs .retain ⟨rfl, rfl, rfl, rfl, rfl, rfl, rfl, rfl, rfl⟩ ?_ ?_ ?_
    (fun _ => rfl) ?_ ?_ ?_
  · show alignMode ((s.askForArray .retain).ctrl.loadImage.get 1) = false
    rw [hfields.1]
    exact hu.image
  · exact fun ha => hask.trans ha
  · exact fun ha => Or.inl (hask.trans ha)
  · show Indication.retainPending.agreesWith (s.askForArray .retain).ctrl.arrayState
    rw [hask]
    rcases hs with ha | ha <;> rw [ha] <;> simp [Indication.agreesWith]
  · show (s.askForArray .retain).ctrl.arrayState.refreshRuns = true
    rw [hask]
    rcases hs with ha | ha <;> rw [ha] <;> rfl
  · show (s.askForArray .retain).ctrl.dozeTimer.isSome = true →
      (s.askForArray .retain).ctrl.arrayState = .ready
    rw [hfields.2, hask, ← hstate]
    exact hu.doze

theorem State.startArray_ctrlAgrees {s : State} (h : s.ctrlAgrees) (hc : s.ctrl.arrayState = .cold) :
    s.startArray.ctrlAgrees where
  work := rfl
  shows := by simp [Indication.agreesWith, State.startArray]
  refresh := by
    have := h.refresh
    rw [hc] at this
    exact this
  doze := fun e => by
    have := h.doze e
    rw [hc] at this
    cases this
  exit := fun e => by
    have := (h.exit e).1
    rw [hc] at this
    cases this
  restore := fun e => by
    have := (h.restore e).1
    rw [hc] at this
    simp at this
  probe := fun e => by
    have hw := h.work
    rw [h.probe e, hc] at hw
    simp [Progress.allowedIn] at hw
  retain := fun e => by cases e
  holds := fun _ => Or.inl rfl
  shadow := h.shadow
  image := h.shadow
  align := fun e => by
    have := (h.align e).1
    rw [hc] at this
    simp at this

/-- An exit from RETAINING begins (R174, R175). -/
theorem State.beginExit_ctrlAgrees {s : State} (h : s.ctrlAgrees)
    (hs : s.ctrl.arrayState = .retaining) (hp : s.ctrl.progress ≠ .probing) :
    s.beginExit.ctrlAgrees where
  work := hs
  shows := h.shows
  refresh := h.refresh
  doze := (State.issue_ctrlAgrees h .retainOut s.issuePoint).doze
  exit := fun e => by cases e
  restore := fun e => by
    have := (h.restore e).1
    rw [hs] at this
    simp at this
  probe := fun e => absurd (h.probe e) hp
  retain := fun e => by cases e
  holds := fun _ => Or.inl rfl
  shadow := h.shadow
  image := h.image
  align := fun e => by
    have := (h.align e).1
    rw [hs] at this
    simp at this

/-! ### SOFT_RESET -/

theorem Progress.halted_allowedIn {p : Progress} {a : ArrayState} (h : p.allowedIn a) :
    p.halted.allowedIn a := by
  cases p
  case renewing d | shutAll d | due d =>
    cases d <;> simp [Progress.halted, Progress.allowedIn, Drain.home] at h ⊢ <;> tauto
  all_goals simp only [Progress.halted, Progress.allowedIn] at h ⊢ <;> tauto

theorem Progress.halted_ofRetain {p : Progress} (h : p.halted.ofRetain = true) :
    p.ofRetain = true := by
  cases p
  case renewing d | shutAll d | due d => cases d <;> first | rfl | cases h
  all_goals exact h

theorem Progress.halted_inAlign {p : Progress} (h : p.inAlign = true) : p.halted.inAlign = true := by
  cases p <;> first | rfl | cases h

theorem Progress.halted_awaitsRestore {p : Progress} (h : p.awaitsRestore = true) :
    p.halted.awaitsRestore = true := by
  cases p <;> first | rfl | cases h

/-- What runs on through a SOFT_RESET is work that held the path before it (R101, R177). -/
theorem Progress.halted_runs {p : Progress} (h : p.halted.runsThroughReset = true) :
    p.runsThroughReset = true ∧ p.holdsPath = true := by
  cases p
  case renewing d | shutAll d | due d => cases d <;> cases h
  all_goals first | exact ⟨h, rfl⟩ | cases h

theorem State.softResetCommand_ctrlAgrees {s : State} (h : s.ctrlAgrees) :
    s.softResetCommand.ctrlAgrees where
  work := Progress.halted_allowedIn h.work
  shows := h.shows
  refresh := h.refresh
  doze := h.doze
  exit := fun e => by
    obtain ⟨ha, hp⟩ := h.exit e
    exact ⟨ha, by simp [State.softResetCommand, State.halt, hp, Progress.halted]⟩
  restore := fun e => ⟨(h.restore e).1, Progress.halted_awaitsRestore (h.restore e).2⟩
  probe := fun e => by cases e
  retain := fun e => h.retain (Progress.halted_ofRetain e)
  holds := fun _ => by
    cases hr : s.ctrl.progress.halted.runsThroughReset
    · exact Or.inr ⟨rfl, hr⟩
    · obtain ⟨hruns, hholds⟩ := Progress.halted_runs hr
      refine Or.inl ?_
      rcases h.holds hholds with hj | ⟨_, hn⟩
      · simp [State.softResetCommand, State.halt, hj, hruns]
      · rw [hruns] at hn
        cases hn
  shadow := h.shadow
  image := h.image
  align := fun e => ⟨(h.align e).1, Progress.halted_inAlign (h.align e).2⟩

/-- The work that stands in READY is an entry's (R166, R171). -/
theorem Progress.ready_cases {p : Progress} (h : p.allowedIn .ready) :
    p = .idle ∨ p.ofRetain = true ∨ p = .draining .doze ∨ p = .shutAll .doze ∨ p = .due .doze := by
  cases p
  case draining d | shutAll d | renewing d | due d =>
    cases d <;> simp_all [Progress.allowedIn, Drain.home, Progress.ofRetain]
  all_goals simp_all [Progress.allowedIn]

/-- The work that holds the path in COLD, DOZING and RETAINING runs on through a SOFT_RESET (R177). -/
theorem Progress.runs_of_holdsPath {p : Progress} {a : ArrayState} (h : p.allowedIn a)
    (ha : a = .cold ∨ a = .dozing ∨ a = .retaining) (hp : p.holdsPath = true) :
    p.runsThroughReset = true := by
  cases p
  case draining d | shutAll d | renewing d | due d =>
    cases d <;> rcases ha with rfl | rfl | rfl <;> simp [Progress.allowedIn, Drain.home] at h
  all_goals first | rfl | cases hp
  all_goals rcases ha with rfl | rfl | rfl <;> simp [Progress.allowedIn] at h

/-- Without a pending reset, work that runs on through one holds the path. -/
theorem Ctrl.Agrees.withoutReset {c : Ctrl} {timer : Bool} {path soft soft' : Prop}
    (h : c.Agrees timer path soft)
    (hp : c.progress.holdsPath = true → c.progress.runsThroughReset = true) :
    c.Agrees timer path soft' :=
  { h with
    holds := fun e => by
      rcases h.holds e with hj | ⟨_, hr⟩
      · exact Or.inl hj
      · rw [hp e] at hr
        cases hr }

theorem Ctrl.Agrees.toRestore {c : Ctrl} {timer : Bool} {path soft soft' : Prop}
    (h : c.Agrees timer path soft) (hs : c.arrayState = .setting ∨ c.arrayState = .aligning) :
    Ctrl.Agrees { c.giveUp with
      restoreDue := true, probe := none, progress := c.progress.toRestore } timer path soft' where
  work := by
    have hw := h.work
    cases hp : c.progress
    case waking | stopped => rwa [hp] at hw
    all_goals trivial
  shows := h.shows
  refresh := h.refresh
  doze := h.doze
  exit := fun e => by
    have := (h.exit e).1
    rcases hs with ha | ha <;> rw [ha] at this <;> cases this
  restore := fun _ => ⟨hs, by cases hp : c.progress <;> rfl⟩
  probe := fun e => by cases e
  retain := fun e => by
    cases hp : c.progress <;> rw [hp] at e <;> cases e
  holds := fun e => by
    cases hp : c.progress <;> rw [hp] at e <;> try cases e
    rcases h.holds (by rw [hp]; rfl) with hj | ⟨_, hr⟩
    · exact Or.inl hj
    · rw [hp] at hr
      cases hr
  shadow := h.shadow
  image := h.image
  align := fun e => by
    obtain ⟨ha, hm⟩ := h.align e
    refine ⟨ha, ?_⟩
    cases hp : c.progress
    case waking =>
      rw [hp] at hm
      cases hm
    all_goals rfl

theorem Ctrl.Agrees.toCold {c : Ctrl} {timer : Bool} {path soft path' soft' : Prop}
    (h : c.Agrees timer path soft) (hs : c.arrayState = .starting) :
    Ctrl.Agrees { c.giveUp with
      arrayState := .cold
      indication := .none
      progress := .idle
      probe := none
      loadWords := []
      copies := #v[none, none, none, none]
      arrayReset := true
      clockEnable := false } timer path' soft' where
  work := trivial
  shows := by simp [Indication.agreesWith]
  refresh := by
    have := h.refresh
    rwa [hs] at this
  doze := fun e => by
    have := h.doze e
    rw [hs] at this
    cases this
  exit := fun e => by
    have := (h.exit e).1
    rw [hs] at this
    cases this
  restore := fun e => by
    have := (h.restore e).1
    rw [hs] at this
    simp at this
  probe := fun e => by cases e
  retain := fun e => by cases e
  holds := fun e => by cases e
  shadow := h.shadow
  image := h.image
  align := fun e => by cases e

/-- A retain entry is abandoned (R177). -/
theorem Ctrl.Agrees.abandonRetain {c : Ctrl} {timer : Bool} {path soft soft' : Prop}
    (h : c.Agrees timer path soft) (hs : c.arrayState = .ready ∨ c.arrayState = .dozing)
    {p : Progress} (hp : p = .idle ∨ p = c.progress ∧ ∃ point, p = .waking point) :
    Ctrl.Agrees { c with indication := .none, progress := p } timer path soft' := by
  obtain ⟨hexit, hrestore, hprobe, halign, _⟩ := h.quiet hs
  exact {
    work := by
      rcases hp with rfl | ⟨rfl, _⟩
      · trivial
      · exact h.work
    shows := by
      rcases hs with ha | ha <;> simp [Indication.agreesWith, ha]
    refresh := h.refresh
    doze := h.doze
    exit := fun e => by rw [show c.exitHeld = true from e] at hexit; cases hexit
    restore := fun e => by rw [show c.restoreDue = true from e] at hrestore; cases hrestore
    probe := fun e => by
      rw [show ({ c with indication := .none, progress := p } : Ctrl).probe = none from hprobe] at e
      cases e
    retain := fun e => by
      rcases hp with rfl | ⟨_, _, rfl⟩ <;> cases e
    holds := fun e => by
      rcases hp with rfl | ⟨hc, point, rfl⟩
      · cases e
      · rcases h.holds (by rw [← hc]; rfl) with hj | ⟨_, hr⟩
        · exact Or.inl hj
        · rw [← hc] at hr
          cases hr
    shadow := h.shadow
    image := h.image
    align := fun e => by rw [show c.inAlignMode = true from e] at halign; cases halign }

/-- The doze or retain entry of READY and DOZING is abandoned at the taking effect (R177). -/
theorem State.abandonEntry_ctrlAgrees {s : State} (h : s.ctrlAgrees)
    (hs : s.ctrl.arrayState = .ready ∨ s.ctrl.arrayState = .dozing) :
    State.ctrlAgrees (if s.emptyHostSide.dozeEntry then s.emptyHostSide.abandonDoze
      else if s.emptyHostSide.ctrl.indication = .retainPending then s.emptyHostSide.abandonRetain
      else s.emptyHostSide) := by
  split
  · next hd =>
    obtain ⟨hready, hprobe⟩ := State.dozeEntry_home h hd
    exact (h.idle (h.no_probe hprobe) _ _).withDoze fun _ => hready
  · next hd =>
    split
    · refine Ctrl.Agrees.abandonRetain h hs ?_
      split
      · next hw => exact Or.inr ⟨rfl, State.waking_iff.1 hw⟩
      · exact Or.inl rfl
    · next hi =>
      refine Ctrl.Agrees.withoutReset h ?_
      rcases hs with ha | ha
      · have hw := h.work
        rw [ha] at hw
        rcases Progress.ready_cases hw with e | e | e | e | e
        · intro hp
          rw [show s.emptyHostSide.ctrl.progress = .idle from e] at hp
          cases hp
        · exact absurd (h.retain e) hi
        all_goals
          refine absurd ?_ hd
          simp [State.dozeEntry, e]
      · exact Progress.runs_of_holdsPath h.work (Or.inr (Or.inl ha))

/-- SOFT_RESET's taking effect keeps the agreement, with none pending any more (R162, R177, R191). -/
theorem State.softResetEffect_ctrlAgrees {s : State} (h : s.ctrlAgrees) :
    s.softResetEffect.ctrlAgrees := by
  unfold State.softResetEffect State.softResetArray
  split
  · next e => exact Ctrl.Agrees.withoutReset h (Progress.runs_of_holdsPath h.work (Or.inl e))
  · next e => exact Ctrl.Agrees.toCold h e
  · next e => exact Ctrl.Agrees.toRestore h (Or.inl e)
  · next e => exact Ctrl.Agrees.toRestore h (Or.inr e)
  · next e => exact State.abandonEntry_ctrlAgrees h (Or.inl e)
  · next e => exact State.abandonEntry_ctrlAgrees h (Or.inr e)
  · next e =>
    have hnone := Ctrl.Agrees.withoutReset (soft' := false = true) h
      (Progress.runs_of_holdsPath h.work (Or.inr (Or.inr e)))
    exact { hnone with exit := fun e => by cases e }

end Sys2Proof.Machine

/-! Every command keeps the Array Controller's parts in agreement. -/

namespace Sys2Proof.Machine

section
variable {s : State}

/-- The agreement goes over to a state with the same controller in which the procedure's job still holds
the path. -/
theorem State.ctrlAgrees_of_kept {t : State} (h : s.ctrlAgrees) (hctrl : t.ctrl = s.ctrl)
    (htimer : t.refresh.timer.isSome = s.refresh.timer.isSome)
    (hjob : s.sched.job = some .procedure → t.sched.job = some .procedure)
    (hsoft : t.bus.softPending = s.bus.softPending) : t.ctrlAgrees := by
  unfold State.ctrlAgrees
  rw [hctrl, htimer, hsoft]
  exact h.mono hjob

theorem State.endHeldBurst_ctrlAgrees (h : s.ctrlAgrees) : s.endHeldBurst.ctrlAgrees := by
  rcases s.endHeldBurst_spec with e | ⟨hj, _, e⟩
  · rwa [e]
  · rw [e]
    refine State.ctrlAgrees_of_kept h rfl rfl (fun hp => ?_) rfl
    rw [hj] at hp
    cases hp

theorem State.closeAll_ctrlAgrees (h : s.ctrlAgrees) : s.closeAll.ctrlAgrees := by
  unfold State.closeAll
  dsimp only
  split
  · next hc =>
    have e : s.ctrl.progress = .draining .doze := by
      simp only [Bool.and_eq_true, decide_eq_true_eq] at hc
      exact hc.1
    exact State.abandonDoze_ctrlAgrees (s := { s with table := s.table.mapBanks Bank.markOpen }) h
      (by simp [State.dozeEntry, e])
  · exact h

/-- ABORT ends no procedure's job (R97). -/
theorem State.abortActive_procedure (hj : s.sched.job = some .procedure) :
    s.abortActive.sched.job = some .procedure := by
  have hend : s.sched.endRecordJob.job = some .procedure := by simp [Sched.endRecordJob, hj]
  unfold State.abortActive
  split
  · exact hj
  · dsimp only
    split
    · exact hend
    · simpa using hend

theorem State.abortAll_ctrlAgrees (h : s.ctrlAgrees) : s.abortAll.ctrlAgrees := by
  refine State.ctrlAgrees_of_kept h (by simp) (by simp) (fun hj => ?_) (by simp)
  exact State.abortActive_procedure (by simpa using hj)

theorem State.captureStop_ctrlAgrees (h : s.ctrlAgrees) : s.captureStop.ctrlAgrees := by
  unfold State.captureStop
  dsimp only
  split
  · exact h
  · exact State.demandCause_ctrlAgrees (by exact h)

theorem State.offer_ctrlAgrees (h : s.ctrlAgrees) (w : Word) : (s.offer w).ctrlAgrees := by
  unfold State.offer
  split
  · exact State.demandCause_ctrlAgrees (by exact h)
  · exact h

theorem State.countPeriod_ctrlAgrees (h : s.ctrlAgrees) : s.countPeriod.ctrlAgrees := by
  unfold State.countPeriod
  split <;> exact h

/-- The doze idle timer's expiry (R165): a doze entry begins, or the timer restarts. -/
theorem State.dozeIdle_ctrlAgrees (h : s.ctrlAgrees) (ht : s.ctrl.dozeTimer.isSome = true) (n : Nat) :
    State.ctrlAgrees (if s.dozeDecision then
        { s.atAC n with ctrl.dozeTimer := none, ctrl.progress := .draining .doze }
      else { s.atAC n with ctrl.dozeTimer := (s.atAC n).dozeStart n }) := by
  have hready := h.doze ht
  split
  · refine Ctrl.Agrees.takeUp h (h.quiet (Or.inl hready)) ⟨rfl, rfl, rfl, rfl, rfl⟩ h.image hready
      (fun e => by cases e) (fun e => by cases e) h.shows ?_ fun e => by cases e
    show s.ctrl.arrayState.refreshRuns = true
    rw [hready]
    rfl
  · exact h.withDoze fun _ => hready

/-- The wake is over (R169). -/
theorem State.wakeEnd_ctrlAgrees (h : s.ctrlAgrees) {point : Nat}
    (e : s.ctrl.progress = .waking point) (n : Nat) :
    State.ctrlAgrees (State.afterWake
      { s.atAC n with ctrl.progress := .idle, sched.job := none }) := by
  have hwork := h.work
  have hdoze := h.doze
  have hprobe := h.no_probe (by simp [e])
  have halign := h.not_inAlignMode (by rw [e]; rfl)
  have hexit : s.ctrl.exitHeld = false := by
    by_contra hx
    have := (h.exit (by simpa using hx)).2
    rw [e] at this
    cases this
  rw [e] at hwork
  have htimer : s.refresh.timer.isSome = true := by
    rw [h.refresh]
    rcases hwork with ha | ha | ha <;> rw [ha] <;> rfl
  have drained (hr : s.ctrl.restoreDue = false) (c' : Ctrl) := Ctrl.Agrees.takeUp (c' := c')
    (path' := (none : Option Job) = some .procedure) h ⟨hexit, hr, hprobe, halign, htimer⟩
  unfold State.afterWake
  split
  · next ha =>
    split
    · exact h.idle hprobe _ _
    · next hr =>
      refine drained (by simpa using hr) _ ⟨rfl, rfl, rfl, rfl, rfl⟩ h.image ha (fun e => by cases e)
        (fun e => by cases e) h.shows ?_ hdoze
      exact h.refresh.symm.trans htimer
  · next ha =>
    split
    · exact h.idle hprobe _ _
    · next hr =>
      refine drained (by simpa using hr) _ ⟨rfl, rfl, rfl, rfl, rfl⟩ h.image ha (fun e => by cases e)
        (fun e => by cases e) h.shows ?_ hdoze
      exact h.refresh.symm.trans htimer
  · next ha =>
    have ha : s.ctrl.arrayState = .dozing := ha
    have hr := (h.quiet (Or.inr ha)).2.1
    refine drained hr _ ⟨rfl, rfl, rfl, rfl, rfl⟩ h.image ?_ ?_ ?_ ?_ rfl fun _ => rfl
    · dsimp only
      split
      · rfl
      · trivial
    · dsimp only
      split <;> exact fun e => by cases e
    · dsimp only
      split
      · next hi => exact fun _ => hi
      · exact fun e => by cases e
    · have hshows := h.shows
      rw [ha] at hshows
      simp_all [Indication.agreesWith]
  · exact h.idle hprobe _ _

/-- NAP_IN leads from READY to DOZING (R166). -/
theorem Ctrl.Agrees.napIn {c : Ctrl} {timer : Bool} {path path' soft : Prop}
    (h : c.Agrees timer path soft) (hp : c.progress = .due .doze) :
    Ctrl.Agrees { c with
      arrayState := .dozing, clockEnable := false, progress := .idle, dozeTimer := none }
      timer path' soft := by
  have hwork := h.work
  rw [hp] at hwork
  have ha : c.arrayState = .ready := by simpa [Progress.allowedIn, Drain.home] using hwork
  have hshows := h.shows
  rw [ha] at hshows
  refine h.takeUp (h.quiet (Or.inl ha)) ⟨rfl, rfl, rfl, rfl, rfl⟩ h.image trivial
    (fun e => by cases e) (fun e => by cases e) ?_ rfl fun e => by cases e
  simp_all [Indication.agreesWith]

/-- RETAIN_IN leads from READY to RETAINING, where the refresh-period timer stands (R172, R103). -/
theorem Ctrl.Agrees.retainIn {c : Ctrl} {timer : Bool} {path path' soft : Prop}
    (h : c.Agrees timer path soft) (hp : c.progress = .due .retain) (min : Option Nat) :
    Ctrl.Agrees { c with
      arrayState := .retaining
      indication := .none
      clockEnable := false
      progress := .idle
      dozeTimer := none
      retainMin := min } false path' soft := by
  have hwork := h.work
  rw [hp] at hwork
  have ha : c.arrayState = .ready := by simpa [Progress.allowedIn, Drain.home] using hwork
  obtain ⟨hexit, hrestore, hprobe, halign, _⟩ := h.quiet (Or.inl ha)
  exact {
    work := trivial
    shows := by simp [Indication.agreesWith]
    refresh := rfl
    doze := fun e => by cases e
    exit := fun e => by rw [show c.exitHeld = true from e] at hexit; cases hexit
    restore := fun e => by rw [show c.restoreDue = true from e] at hrestore; cases hrestore
    probe := fun e => by
      have hsome : c.probe.isSome = true := e
      rw [hprobe] at hsome
      cases hsome
    retain := fun e => by cases e
    holds := fun e => by cases e
    shadow := h.shadow
    image := h.image
    align := fun e => by rw [show c.inAlignMode = true from e] at halign; cases halign }

/-- A restore is granted (R162). -/
theorem State.restoreGrant_ctrlAgrees (h : s.ctrlAgrees) (hg : s.restoreGrant = true) :
    State.ctrlAgrees (State.grant { s with
      ctrl.restoreDue := false
      ctrl.progress := if s.ctrl.inAlignMode then .restoreLoad
        else .restoreShut s.ctrl.setModeLoaded } .procedure) := by
  have hdue : s.ctrl.restoreDue = true := by
    simp only [State.restoreGrant, Bool.and_eq_true] at hg
    exact hg.1.1
  obtain ⟨hstate, hprog⟩ := h.restore hdue
  have hprobe : s.ctrl.probe = none := h.no_probe fun e => by rw [e] at hprog; cases hprog
  exact {
    work := by
      dsimp only [State.grant]
      split <;> exact hstate
    shows := h.shows
    refresh := h.refresh
    doze := h.doze
    exit := fun e => by
      have := (h.exit e).1
      rcases hstate with ha | ha <;> rw [ha] at this <;> cases this
    restore := fun e => by cases e
    probe := fun e => by
      have hsome : s.ctrl.probe.isSome = true := e
      rw [hprobe] at hsome
      cases hsome
    retain := by
      dsimp only [State.grant]
      split <;> exact fun e => by cases e
    holds := fun _ => Or.inl rfl
    shadow := h.shadow
    image := h.image
    align := fun e => by
      have hm : s.ctrl.inAlignMode = true := e
      refine ⟨(h.align hm).1, ?_⟩
      dsimp only [State.grant]
      rw [if_pos hm]
      rfl }

/-- A drain claim is granted (R82): the shut-all begins. -/
theorem State.drainGrant_ctrlAgrees (h : s.ctrlAgrees) {d : Drain} (hg : s.drainGrant = some d) :
    State.ctrlAgrees (State.grant { s with ctrl.progress := .shutAll d } .procedure) := by
  have e : s.ctrl.progress = .draining d := by
    unfold State.drainGrant at hg
    split at hg
    · next e =>
      split at hg <;> cases hg
      exact e
    · cases hg
  have hwork := h.work
  have hretain := h.retain
  rw [e] at hwork hretain
  refine (h.mono (path' := True) fun _ => trivial).move (p := .shutAll d) (by rw [e]; rfl) hwork
    (Or.inl (h.no_probe (by simp [e]))) ?_ (fun _ => Or.inl trivial) ?_ |>.mono fun _ => rfl
  · intro hr
    refine hretain ?_
    cases d <;> first | rfl | cases hr
  · intro hm
    rw [h.not_inAlignMode (by rw [e]; rfl)] at hm
    cases hm

/-- A RENEW keeps the agreement (R149, R158). -/
theorem State.afterRenew_ctrlAgrees (h : s.ctrlAgrees) : s.afterRenew.ctrlAgrees := by
  have hwork := h.work
  have hretain := h.retain
  have hholds := h.holds
  unfold State.afterRenew
  split
  · next hj => exact State.ctrlAgrees_of_kept h rfl rfl (fun e => by rw [hj] at e; cases e) rfl
  · next hj =>
    split
    · exact h
    · exact State.ctrlAgrees_of_kept h rfl rfl (fun e => by rw [hj] at e; cases e) rfl
  · split
    · exact h
    · split
      · next d e =>
        have hm := h.not_inAlignMode (by rw [e]; rfl)
        rw [e] at hwork hretain hholds
        refine h.move (by rw [e]; rfl) ?_ (Or.inl (h.no_probe (by simp [e]))) ?_ ?_ ?_
        · split
          · next hd =>
            rw [hd] at hwork
            exact hwork.1
          · exact Or.inl hwork.1
        · intro hr
          refine hretain ?_
          cases d <;> first | rfl | cases hr
        · refine fun _ => (hholds rfl).imp_right fun hsoft => ⟨hsoft.1, ?_⟩
          split <;> rfl
        · intro hx
          rw [hm] at hx
          cases hx
      · next e =>
        have hm := h.not_inAlignMode (by rw [e]; rfl)
        rw [e] at hwork hholds
        refine h.move (p := .suspendSet) (by rw [e]; rfl) hwork (Or.inl (h.no_probe (by simp [e])))
          (fun hr => by cases hr) (fun _ => (hholds rfl).imp_right fun hsoft => ⟨hsoft.1, rfl⟩) ?_
        intro hx
        rw [hm] at hx
        cases hx
      · exact h

/-- A phase of STARTING follows another (R141). -/
theorem Ctrl.Agrees.phase {c : Ctrl} {timer : Bool} {path soft : Prop} (h : c.Agrees timer path soft)
    (hb : c.progress.awaitsRestore = false) (hp : c.progress ≠ .probing)
    (hm : c.progress.inAlign = false) (hholds : c.progress.holdsPath = true) {p : Progress}
    (hwork : p.allowedIn c.arrayState) (hretain : p.ofRetain = false)
    (hruns : p.runsThroughReset = false) : Ctrl.Agrees { c with progress := p } timer path soft := by
  refine h.move hb hwork (Or.inl (h.no_probe hp)) (fun e => by rw [hretain] at e; cases e) (fun _ => ?_)
    fun e => by rw [h.not_inAlignMode hm] at e; cases e
  exact (h.holds hholds).imp_right fun hsoft => ⟨hsoft.1, hruns⟩

theorem shadowWrite_align (m : Vector Word 4) (h : alignMode (m.get 1) = false) (word : Fin 4)
    (v : Word) :
    alignMode ((m.set word.val (if word = 1 then
      (v &&& ~~~alignModeMask) ||| (m.get word &&& alignModeMask) else v) word.isLt).get 1) = false := by
  by_cases hw : word = 1
  · subst hw
    simp_all [Vector.get_eq_getElem, alignMode, alignModeMask]
  · have hv : word.val ≠ 1 := fun e => hw (Fin.ext e)
    simpa [Vector.get_eq_getElem, Vector.getElem_set_ne, hv] using h

theorem State.procedureAllowed_state (h : s.procedureAllowed = true) :
    s.ctrl.arrayState = .ready ∨ s.ctrl.arrayState = .dozing :=
  (of_decide_eq_true h).1

theorem accepted_of_ite {p : Bool}
    (h : (if p then CommandOutcome.accepted else .state) = .accepted) : p = true := by
  by_contra hn
  rw [if_neg hn] at h
  cases h

theorem State.job_of_arbiterOpen (h : s.arbiterOpen = true) : s.sched.job = none := by
  simp only [State.arbiterOpen, Bool.and_eq_true, decide_eq_true_eq] at h
  exact h.1.1.1

/-- A job granted on a free path. -/
theorem State.ctrlAgrees_of_free {t : State} (h : s.ctrlAgrees) (hfree : s.sched.job = none)
    (hctrl : t.ctrl = s.ctrl) (hrefresh : t.refresh = s.refresh) (hbus : t.bus = s.bus) :
    t.ctrlAgrees :=
  State.ctrlAgrees_of_kept h hctrl (by rw [hrefresh]) (fun hj => by rw [hfree] at hj; cases hj)
    (by rw [hbus])

theorem State.entryDue_progress {d : Drain} (h : s.entryDue d = true) : s.ctrl.progress = .due d := by
  simp only [State.entryDue, Bool.and_eq_true, decide_eq_true_eq] at h
  exact h.1.1.1.2

/-- RETAIN_EXIT in RETAINING: the exit begins, or is held (R174). -/
theorem State.retainExit_ctrlAgrees (h : s.ctrlAgrees)
    (hc : (decide (s.ctrl.arrayState = .retaining) && !s.ctrl.exitUnderWay) = true) :
    State.ctrlAgrees (if s.ctrl.retainMin = none then s.beginExit
      else { s with ctrl.exitHeld := true }) := by
  simp only [Bool.and_eq_true, decide_eq_true_eq, Bool.not_eq_true'] at hc
  obtain ⟨ha, hu⟩ := hc
  have hidle : s.ctrl.progress = .idle := by
    have hwork := h.work
    rw [ha] at hwork
    simp only [Ctrl.exitUnderWay, Bool.or_eq_false_iff] at hu
    cases hp : s.ctrl.progress <;> rw [hp] at hwork hu
    case draining d | shutAll d | renewing d | due d =>
      cases d <;> simp [Progress.allowedIn, Drain.home] at hwork
    all_goals simp_all [Progress.allowedIn]
  split
  · exact State.beginExit_ctrlAgrees h ha (by simp [hidle])
  · exact { h with exit := fun _ => ⟨ha, hidle⟩ }

/-- The parts have their reset values. -/
theorem State.resetParts_ctrlAgrees (hctrl : s.ctrl = Ctrl.reset)
    (hrefresh : s.refresh = Refresh.reset) (hsched : s.sched = Sched.reset) : s.ctrlAgrees := by
  unfold State.ctrlAgrees
  rw [hctrl, hrefresh, hsched]
  constructor
  all_goals simp [Ctrl.reset, Refresh.reset, Sched.reset, Progress.allowedIn, Indication.agreesWith,
    ArrayState.refreshRuns, Progress.ofRetain, Progress.holdsPath]
  all_goals rfl

theorem State.resetHoldAt_some {n : Nat} (h : s.resetHoldAt = some n) :
    ∃ point, s.ctrl.progress = .resetHold point := by
  unfold State.resetHoldAt at h
  split at h
  · next point e => exact ⟨point, e⟩
  · cases h

theorem State.wakePhaseAt_some {n : Nat} (h : s.wakePhaseAt = some n) :
    ∃ point, s.ctrl.progress = .wakePhase point := by
  unfold State.wakePhaseAt at h
  split at h
  · next point e => exact ⟨point, e⟩
  · cases h

theorem State.settlePhaseAt_some {n : Nat} (h : s.settlePhaseAt = some n) :
    ∃ point, s.ctrl.progress = .settlePhase point := by
  unfold State.settlePhaseAt at h
  split at h
  · next point e => exact ⟨point, e⟩
  · cases h

theorem State.lockPhaseAt_some {n : Nat} (h : s.lockPhaseAt = some n) :
    ∃ point, s.ctrl.progress = .lockPhase point := by
  unfold State.lockPhaseAt at h
  split at h
  · next point e => exact ⟨point, e⟩
  · cases h

theorem State.retainExitTimeAt_some {n : Nat} (h : s.retainExitTimeAt = some n) :
    ∃ point changed, s.ctrl.progress = .exitTime point changed := by
  unfold State.retainExitTimeAt at h
  split at h
  · next point changed e => exact ⟨point, changed, e⟩
  · cases h

/-- SETTLE ends with the load of M1 (R142). -/
theorem State.settlePhase_ctrlAgrees (h : s.ctrlAgrees) {point : Nat}
    (e : s.ctrl.progress = .settlePhase point) (n : Nat) :
    State.ctrlAgrees (State.loadMode { s.atAC n with
      setup := s.setup.loadWorking
      ctrl.progress := .loading
      ctrl.loadWords := [2, 3, 0] } 1 (s.ctrl.imageValue 1) n) := by
  have hwork := h.work
  rw [e] at hwork
  have hjob := (h.holds (by rw [e]; rfl)).imp_right fun hsoft => hsoft.1
  let u : State := { s.atAC n with setup := s.setup.loadWorking }
  have hu : u.ctrlAgrees := h
  refine State.load_ctrlAgrees hu (next := .loading) (word := 1) (v := s.ctrl.imageValue 1)
    (by rw [show u.ctrl.progress = _ from e]; rfl)
    (h.no_probe (by simp [e])) (Or.inl hwork) rfl (hjob.imp_right fun hsoft => ⟨hsoft, rfl⟩) ?_ n
    [2, 3, 0]
  rw [if_pos rfl, Ctrl.imageValue_align h.image]
  exact fun e => by cases e

/-- LOCK ends with an alignment, or the start-up ends (R143). -/
theorem State.lockPhase_ctrlAgrees (h : s.ctrlAgrees) {point : Nat}
    (e : s.ctrl.progress = .lockPhase point) (n : Nat) :
    State.ctrlAgrees (
      if s.ctrl.autoAlign then
        { s.atAC n with ctrl := { s.ctrl.beginAlignment with progress := .due .align } }
      else (s.atAC n).endStartUp) := by
  have hwork := h.work
  rw [e] at hwork
  split
  · exact (h.phase (p := .due .align) (by rw [e]; rfl) (by simp [e]) (by rw [e]; rfl) (by rw [e]; rfl)
      (Or.inr ⟨rfl, hwork⟩) rfl rfl).of_view rfl
  · exact (State.timerAndReady_ctrlAgrees (s := s.atAC n) h (by simp [e, Progress.awaitsRestore])
      (by simp [e]) (by simp [e, Progress.inAlign])).1

/-- A probe in flight completes (R155 to R158). -/
theorem State.probeCompletion_ctrlAgrees (h : s.ctrlAgrees) {p : Probe} (e : s.ctrl.probe = some p)
    (v0 v1 : Bool) (n : Nat) :
    let u := { s.atAC n with ctrl := s.ctrl.sampleTap p.tap v0 v1 }
    State.ctrlAgrees
      (if u.ctrl.searching then u.nextProbe else { u with ctrl.progress := .endClear }) := by
  have hprobing := h.probe (by rw [e]; rfl)
  have hwork := h.work
  have hholds := h.holds
  rw [hprobing] at hwork hholds
  have hu : State.ctrlAgrees { s.atAC n with ctrl := s.ctrl.sampleTap p.tap v0 v1 } :=
    { h with probe := fun e => by cases e }
  have next (q : Progress) (hw : q.allowedIn s.ctrl.arrayState) (hr : q.ofRetain = false)
      (hn : q.runsThroughReset = false) (ha : q.inAlign = true) :
      State.ctrlAgrees { s.atAC n with
        ctrl := { s.ctrl.sampleTap p.tap v0 v1 with progress := q } } :=
    hu.move (by rw [show (s.ctrl.sampleTap p.tap v0 v1).progress = _ from hprobing]; rfl) hw
      (Or.inl rfl) (fun e => by rw [hr] at e; cases e)
      (fun _ => (hholds rfl).imp_right fun hsoft => ⟨hsoft.1, hn⟩) fun _ => ha
  dsimp only
  split
  · rcases State.nextProbe_spec { s.atAC n with ctrl := s.ctrl.sampleTap p.tap v0 v1 } with
      ⟨_, e⟩ | ⟨_, e⟩
    · rw [e]
      exact next .probeDue hwork rfl rfl rfl
    · rw [e]
      exact State.suspendForRefresh_ctrlAgrees hu
  · exact next .endClear hwork rfl rfl rfl

/-- A STROBE_PROBE is issued (R155). -/
theorem State.strobeProbe_ctrlAgrees (h : s.ctrlAgrees) (hm : s.mayProbe = true) (n : Nat)
    (p : Probe) :
    State.ctrlAgrees { s.issue .strobeProbe n with
      ctrl.progress := .probing, ctrl.probe := some p } := by
  simp only [State.mayProbe, Bool.and_eq_true, decide_eq_true_eq] at hm
  have hjob := hm.1.1.1.1.1.1
  have hwanted := hm.1.1.1.1.1.2
  have hbusy : s.ctrl.progress.awaitsRestore = false ∧
      (s.ctrl.arrayState = .starting ∨ s.ctrl.arrayState = .aligning) := by
    have hwork := h.work
    unfold State.probeWanted at hwanted
    split at hwanted
    · next e =>
      rw [e] at hwork ⊢
      exact ⟨rfl, hwork⟩
    · next e =>
      rw [e] at hwork ⊢
      exact ⟨rfl, hwork⟩
    · cases hwanted
  obtain ⟨hexit, hrestore⟩ := h.busy hbusy.1
  have hi := State.issue_ctrlAgrees h .strobeProbe n
  exact { hi with
    work := hbusy.2
    exit := fun e => by rw [show s.ctrl.exitHeld = true from e] at hexit; cases hexit
    restore := fun e => by rw [show s.ctrl.restoreDue = true from e] at hrestore; cases hrestore
    probe := fun _ => rfl
    retain := fun e => by cases e
    holds := fun _ => Or.inl hjob
    align := fun e => ⟨(h.align e).1, rfl⟩ }

end

/-- Every command keeps the Array Controller's parts in agreement. -/
theorem exec_keeps_ctrlAgrees {c : Instr} {s t : State} (h : exec c s = .next t)
    (hs : s.ctrlAgrees) : t.ctrlAgrees := by
  let P := State.ctrlAgrees
  have answered : ∀ x y : State, P x → (∃ c z, y = x.answer c z) → P y := by
    rintro x _ hx ⟨_, _, rfl⟩
    exact hx
  by_cases hp : .bus ∈ partsOf c ∨ .sched ∈ partsOf c ∨ .refresh ∈ partsOf c ∨ .ctrl ∈ partsOf c
  case neg =>
    obtain ⟨hbus, _, _, _, hsched, _, hrefresh, _, _, hctrl, _⟩ := exec_keepsBut h
    simp only [not_or] at hp
    obtain ⟨pbus, psched, prefresh, pctrl⟩ := hp
    exact State.ctrlAgrees_of_kept hs (hctrl pctrl) (by rw [hrefresh prefresh])
      (fun hj => by rw [hsched psched, hj]) (by rw [hbus pbus])
  cases c <;> simp only [exec] at h
  case post =>
    refine State.take_keeps (P := P) h hs ?_
    split
    · exact State.wakeCause_ctrlAgrees (by exact hs)
    · exact hs
  case dataPortWrite | dataPortRead =>
    refine State.take_keeps (P := P) h hs ?_
    split <;> exact hs
  case dataPortPointerWrite => exact State.take_keeps (P := P) h hs hs
  case plainRegisterWrite =>
    refine State.take_keeps (P := P) h hs ?_
    exact State.ctrlAgrees_of_kept hs rfl rfl id (by simp)
  case ageLimitWrite =>
    refine State.take_keeps (P := P) h hs ?_
    (repeat' split) <;> exact hs
  case refreshSettingWrite =>
    refine State.take_keeps (P := P) h hs ?_
    split
    · split
      · exact State.urgentCause_ctrlAgrees (by exact hs)
      · exact hs
    · (repeat' split) <;> exact hs
  case autoAlignWrite | laneDelayWrite =>
    refine State.take_keeps (P := P) h hs ?_
    (repeat' split) <;> first | exact hs | exact hs.of_view rfl
  case shadowWrite word v =>
    exact State.take_keeps (P := P) h hs
      { hs with shadow := shadowWrite_align s.ctrl.shadows hs.shadow word v }
  case consumerWrite =>
    refine State.take_keeps (P := P) h hs ?_
    split
    · exact State.demandCause_ctrlAgrees (by exact hs)
    · exact hs
  case startArray =>
    refine State.command_keeps (P := P) h hs answered fun ho => ?_
    refine State.startArray_ctrlAgrees hs ?_
    by_contra hcold
    rw [State.startArrayOutcome_state hcold] at ho
    cases ho
  case setMode =>
    refine State.command_keeps (P := P) h hs answered fun ho => State.setMode_ctrlAgrees hs ?_
    refine State.procedureAllowed_state ?_
    by_contra hn
    rw [Bool.not_eq_true] at hn
    simp [State.setModeOutcome, hn] at ho
  case align =>
    refine State.command_keeps (P := P) h hs answered fun ho => State.startAlign_ctrlAgrees hs ?_
    exact State.procedureAllowed_state (accepted_of_ite ho)
  case retainEnter =>
    refine State.command_keeps (P := P) h hs answered fun ho => State.retainEnter_ctrlAgrees hs ?_
    have hr := accepted_of_ite ho
    exact (of_decide_eq_true hr).1
  case retainExit =>
    exact State.command_keeps (P := P) h hs answered fun ho =>
      State.retainExit_ctrlAgrees hs (accepted_of_ite ho)
  case closeAll =>
    exact State.command_keeps (P := P) h hs answered fun _ => State.closeAll_ctrlAgrees hs
  case abort =>
    exact State.command_keeps (P := P) h hs answered fun _ => State.abortAll_ctrlAgrees hs
  case clearRetention | captureStart => exact State.command_keeps (P := P) h hs answered fun _ => hs
  case captureStop =>
    exact State.command_keeps (P := P) h hs answered fun _ => State.captureStop_ctrlAgrees hs
  case softReset =>
    refine State.take_keeps (P := P) h hs ?_
    split
    · exact State.softResetCommand_ctrlAgrees hs
    · exact State.softResetEffect_ctrlAgrees (State.softResetCommand_ctrlAgrees hs)
  case softResetTakesEffect =>
    refine State.take_keeps (P := P) h hs ?_
    split
    · exact State.softResetEffect_ctrlAgrees hs
    · exact hs
  case hardwareReset =>
    injection h with h
    subst h
    exact State.resetParts_ctrlAgrees rfl rfl rfl
  case captureByteArrival =>
    refine State.take_keeps (P := P) h hs ?_
    split
    · split
      · exact hs
      · exact State.offer_ctrlAgrees (by exact hs) _
    · exact hs
  case refreshPeriodExpiry =>
    refine State.takeAt_keeps (P := P) h hs fun n _ => ?_
    refine State.urgentCause_ctrlAgrees (State.countPeriod_ctrlAgrees ?_)
    exact State.ctrlAgrees_of_kept hs rfl (by simp [State.nextRefreshPeriod]) id rfl
  case dozeIdleExpiry =>
    refine State.takeAt_keeps (P := P) h hs fun n hn => State.dozeIdle_ctrlAgrees hs ?_ n
    obtain ⟨p, hp, _⟩ := Option.map_eq_some_iff.1 hn
    rw [hp]
    rfl
  case wakeEnd =>
    refine State.takeAt_keeps (P := P) h hs fun n hn => ?_
    unfold State.wakeEndAt at hn
    split at hn
    · next e => exact State.wakeEnd_ctrlAgrees hs e n
    · cases hn
  case openDelayExpiry =>
    exact State.takeAt_keeps (P := P) h hs fun n _ => State.endHeldBurst_ctrlAgrees (by exact hs)
  case closeTimeExpiry | modeHoldExpiry | renewCompletion =>
    exact State.takeAt_keeps (P := P) h hs fun n _ => State.proceed_ctrlAgrees (by exact hs)
  case modeSettleExpiry =>
    exact State.takeAt_keeps (P := P) h hs fun n _ => State.afterSettle_ctrlAgrees (by exact hs)
  case readHoldExpiry => exact State.takeAt_keeps (P := P) h hs fun n _ => hs.of_view rfl
  case resetHoldExpiry =>
    refine State.takeAt_keeps (P := P) h hs fun n hn => ?_
    obtain ⟨point, e⟩ := State.resetHoldAt_some hn
    have hwork := hs.work
    rw [e] at hwork
    exact (hs.phase (p := .wakePhase (n + s.setup.wakeUnits * 1024)) (by rw [e]; rfl) (by simp [e])
      (by rw [e]; rfl) (by rw [e]; rfl) hwork rfl rfl).of_view rfl
  case wakePhaseExpiry =>
    refine State.takeAt_keeps (P := P) h hs fun n hn => ?_
    obtain ⟨point, e⟩ := State.wakePhaseAt_some hn
    have hwork := hs.work
    rw [e] at hwork
    exact (hs.phase (p := .settlePhase (n + s.setup.startSettle)) (by rw [e]; rfl) (by simp [e])
      (by rw [e]; rfl) (by rw [e]; rfl) hwork rfl rfl).of_view rfl
  case settlePhaseExpiry =>
    refine State.takeAt_keeps (P := P) h hs fun n hn => ?_
    obtain ⟨point, e⟩ := State.settlePhaseAt_some hn
    exact State.settlePhase_ctrlAgrees hs e n
  case lockPhaseExpiry =>
    refine State.takeAt_keeps (P := P) h hs fun n hn => ?_
    obtain ⟨point, e⟩ := State.lockPhaseAt_some hn
    exact State.lockPhase_ctrlAgrees hs e n
  case retainMinExpiry =>
    refine State.takeAt_keeps (P := P) h hs fun n _ => ?_
    dsimp only
    split
    · next hx =>
      obtain ⟨ha, e⟩ := hs.exit hx
      exact State.beginExit_ctrlAgrees (s := { s.atAC n with ctrl.retainMin := none })
        (hs.of_view rfl) ha (by simp [e])
    · exact hs.of_view rfl
  case retainExitTimeExpiry =>
    refine State.takeAt_keeps (P := P) h hs fun n hn => ?_
    obtain ⟨point, changed, e⟩ := State.retainExitTimeAt_some hn
    split
    · next e => exact State.lockRestartStep_ctrlAgrees (s := s.atAC n) hs e
    · exact (State.timerAndReady_ctrlAgrees (s := s.atAC n) hs (by simp [e, Progress.awaitsRestore])
        (by simp [e]) (by simp [e, Progress.inAlign])).2
  case strobeProbeCompletion v0 v1 =>
    refine State.takeAt_keeps (P := P) h hs fun n _ => ?_
    split
    · next p e => exact State.probeCompletion_ctrlAgrees hs e v0 v1 n
    · exact hs
  case readBurstCompletion | writeBurstCompletion =>
    refine State.takeAt_keeps (P := P) h hs fun n _ => ?_
    split
    · exact State.ctrlAgrees_of_kept hs (by simp) (by simp) (by simp) (by simp)
    · exact hs
  case selection =>
    refine State.take_keeps (P := P) h hs ?_
    split
    · next hg =>
      have hfree : s.sched.job = none := State.job_of_arbiterOpen (by
        simp only [State.selectionGrant, Bool.and_eq_true] at hg
        exact hg.1.1.1.1)
      unfold State.select
      split
      · exact State.endHeldBurst_ctrlAgrees (State.ctrlAgrees_of_free hs hfree rfl rfl rfl)
      · exact hs
    · exact hs
  case recordBurstGrant =>
    refine State.take_keeps (P := P) h hs ?_
    split
    · next hg =>
      have hfree : s.sched.job = none := State.job_of_arbiterOpen (by
        simp only [State.burstGrant, Bool.and_eq_true] at hg
        exact hg.1.1.1.1)
      exact State.endHeldBurst_ctrlAgrees (State.ctrlAgrees_of_free hs hfree rfl rfl rfl)
    · exact hs
  case captureChunkGrant =>
    refine State.take_keeps (P := P) h hs ?_
    split
    · next hg =>
      simp only [State.urgentChunkGrant, Bool.and_eq_true] at hg
      exact State.ctrlAgrees_of_free hs (State.job_of_arbiterOpen hg.1.1) rfl rfl rfl
    · split
      · next hg =>
        simp only [State.normalChunkGrant, Bool.and_eq_true] at hg
        exact State.ctrlAgrees_of_free hs (State.job_of_arbiterOpen hg.1.1.1.1.1.1) rfl rfl rfl
      · exact hs
  case urgentRefreshGrant =>
    refine State.take_keeps (P := P) h hs ?_
    split
    · next hg =>
      exact State.ctrlAgrees_of_free hs (State.job_of_arbiterOpen (Bool.and_eq_true_iff.1 hg).1)
        rfl rfl rfl
    · exact hs
  case shutClaimGrant =>
    refine State.take_keeps (P := P) h hs ?_
    split
    · next hg =>
      simp only [State.shutGrant, Option.ite_none_right_eq_some, Bool.and_eq_true] at hg
      exact State.ctrlAgrees_of_free hs (State.job_of_arbiterOpen hg.1.1.1.1) rfl rfl rfl
    · exact hs
  case opportunisticRefreshGrant =>
    refine State.take_keeps (P := P) h hs ?_
    split
    · next hg =>
      simp only [State.pullInGrant, Bool.and_eq_true] at hg
      exact State.ctrlAgrees_of_free hs (State.job_of_arbiterOpen hg.1.1.1.1.1.1.1) rfl rfl rfl
    · exact hs
  case drainGrant =>
    refine State.take_keeps (P := P) h hs ?_
    split
    · next e => exact State.proceed_ctrlAgrees (State.drainGrant_ctrlAgrees hs e)
    · exact hs
  case restoreGrant =>
    refine State.take_keeps (P := P) h hs ?_
    split
    · next e => exact State.proceed_ctrlAgrees (State.restoreGrant_ctrlAgrees hs e)
    · exact hs
  case rowOpen =>
    refine State.takeAt_keeps (P := P) h hs fun n _ => ?_
    split
    · next b row _ => exact State.issue_ctrlAgrees hs (.rowOpen b row) n
    · exact hs
  case rowShut =>
    refine State.takeAt_keeps (P := P) h hs fun n _ => ?_
    split
    · next b _ =>
      refine State.ctrlAgrees_of_kept (State.issue_ctrlAgrees hs (.rowShut b) n)
        rfl rfl (fun hj => ?_) rfl
      have hj : s.sched.job = some .procedure := hj
      simp [State.shutRow, Sched.endShutClaim, hj]
    · exact hs
  case readBurst =>
    refine State.takeAt_keeps (P := P) h hs fun n _ => ?_
    split
    · next a x l e =>
      refine State.ctrlAgrees_of_kept
        (State.issue_ctrlAgrees hs (.readBurst x.bank x.column x.length) n) rfl rfl (fun hj => ?_) rfl
      have hj : s.sched.job = some .procedure := hj
      simp [State.dueRead, State.recordBlock, hj] at e
    · exact hs
  case writeBurst =>
    refine State.takeAt_keeps (P := P) h hs fun n _ => ?_
    split
    · next x data user w e =>
      refine State.ctrlAgrees_of_kept
        (State.issue_ctrlAgrees hs (.writeBurst x.bank x.column x.length) n) (by simp; rfl) (by simp)
        (fun hj => ?_) (by simp)
      have hj : s.sched.job = some .procedure := hj
      simp [State.dueWrite, State.writeBlock_none (Or.inr hj)] at e
    · exact hs
  case renew =>
    exact State.takeAt_keeps (P := P) h hs fun n _ =>
      State.afterRenew_ctrlAgrees (State.issue_ctrlAgrees hs .renew n)
  case modeLoad =>
    refine State.takeAt_keeps (P := P) h hs fun n _ => ?_
    split
    · next e =>
      exact State.suspendForRefresh_ctrlAgrees (State.dueLoad_ctrlAgrees hs e n s.ctrl.remainingLoads)
    · exact hs
  case strobeProbe =>
    refine State.takeAt_keeps (P := P) h hs fun n hn => ?_
    simp only [State.strobeProbeAt, Option.ite_none_right_eq_some] at hn
    exact State.strobeProbe_ctrlAgrees hs hn.1 n _
  case napIn =>
    refine State.takeAt_keeps (P := P) h hs fun n hn => ?_
    simp only [State.napInAt, Option.ite_none_right_eq_some] at hn
    exact Ctrl.Agrees.napIn (State.issue_ctrlAgrees hs .napIn n)
      (State.entryDue_progress (s := s) hn.1)
  case retainIn =>
    refine State.takeAt_keeps (P := P) h hs fun n hn => ?_
    simp only [State.retainInAt, Option.ite_none_right_eq_some] at hn
    exact Ctrl.Agrees.retainIn (State.issue_ctrlAgrees hs .retainIn n)
      (State.entryDue_progress (s := s) hn.1) _
  all_goals simp [partsOf] at hp

/-- Settles O59: every command keeps the Array Controller's parts in agreement. -/
theorem controllerPartsAgreeAtEveryStep : Obligations.ControllerPartsAgreeAtEveryStep := by
  intro s t h hs
  refine step_keeps h hs (fun _ _ hx => hx) (fun _ _ hx => hx) (fun _ _ hx => hx) fun c x y hxy hx => ?_
  exact State.controllerAgrees_iff.2 (exec_keeps_ctrlAgrees hxy (State.controllerAgrees_iff.1 hx))

end Sys2Proof.Machine

/-! Steps and resets: the empty queue (logs 1 and 4), the values of a hardware reset (R192), and the
invariants of the reset state. -/

namespace Sys2Proof.Machine

/-! ### The reset state -/

/-- Settles O60: each invariant is evaluated, or is that of the reset values of its parts. -/
theorem resetHasEveryInvariant : Obligations.ResetHasEveryInvariant := by
  refine ⟨?_, ?_, ?_, State.reset_memories, ?_, ?_, ?_,
    State.controllerAgrees_iff.2 (State.resetParts_ctrlAgrees rfl rfl rfl)⟩
  · exact (State.faultReportAgrees_iff _).2 Events.reportAgrees_reset
  · show (-8 : Int) ≤ 0 ∧ (0 : Int) ≤ 8 ∧ 1 ≤ 6 ∧ 6 ≤ 8 ∧ (-8 : Int) ≤ -2 ∧ (-2 : Int) ≤ 0 ∧ 0 ≤ 255
    decide
  · exact (State.settingsInRange_iff _).2 ⟨Setup.inRange_reset, by decide⟩
  · rw [State.captureInBounds_iff]
    exact ⟨Capture.inBounds_idle rfl rfl rfl rfl rfl (Nat.zero_le _) (Nat.zero_le _),
      State.chunkFinds_of_noChunk nofun⟩
  · rw [State.poolAndSlotsAgree_iff]
    exact ⟨nofun, SlotsAgree.empty⟩
  · exact ⟨fun b => by rw [reset_bank _ rfl]; exact Bank.reset_formed,
      fun _ => ⟨fun b => by rw [reset_bank _ rfl]; rfl, Or.inl rfl⟩⟩

/-! ### The empty queue -/

/-- An event of the part's own stands among those due, and a first one goes first. -/
theorem State.ownEvent_due {s : State} (h : s.firstDue ++ s.ownDue ≠ []) :
    ∃ c, s.ownEvent = some c ∧ c ∈ s.firstDue ++ s.ownDue ∧ (s.firstDue ≠ [] → c ∈ s.firstDue) := by
  unfold State.ownEvent
  cases hf : s.firstDue with
  | cons c rest => exact ⟨c, rfl, by simp, fun _ => by simp⟩
  | nil =>
    rw [hf, List.nil_append] at h
    cases ho : s.ownDue with
    | nil => exact absurd ho h
    | cons c rest =>
      cases rest with
      | nil => exact ⟨c, rfl, by simp, fun hn => absurd rfl hn⟩
      | cons d rest =>
        have hlt : Config.choice s.draws % (c :: d :: rest).length < (c :: d :: rest).length :=
          Nat.mod_lt _ (by simp)
        refine ⟨_, List.getElem?_eq_getElem hlt, ?_, fun hn => absurd rfl hn⟩
        exact List.getElem_mem hlt

theorem State.ownEvent_none {s : State} (h : s.firstDue ++ s.ownDue = []) : s.ownEvent = none := by
  obtain ⟨hf, ho⟩ := List.append_eq_nil_iff.1 h
  rw [State.ownEvent, hf, ho]

theorem step_of_empty {s : State} (h : s.pending = []) : step s = idle s := by
  rw [step, h]

/-- Settles O2: the cases of `idle`, with the event that `ownEvent` takes. -/
theorem emptyQueueTakesAnOwnEventOrPassesOneAC :
    Obligations.EmptyQueueTakesAnOwnEventOrPassesOneAC := by
  intro s hq
  rw [step_of_empty hq]
  refine ⟨fun hlow => ?_, fun hlow hdue d hd => ?_, fun hlow hdue hd => ?_, fun hlow hdue => ?_⟩
  · simp [idle, hlow]
  · simp [idle, hlow, State.ownEvent_none hdue, State.tick, hd]
  · simp [idle, hlow, State.ownEvent_none hdue, State.tick, hd]
  · obtain ⟨c, hc, hmem, hfirst⟩ := State.ownEvent_due hdue
    exact ⟨c, hmem, hfirst, by simp [idle, hlow, hc]⟩

/-! ### Hardware reset -/

/-- Settles O5: every field is read off the reset values. -/
theorem hardwareResetGivesEveryBlockItsResetValue :
    Obligations.HardwareResetGivesEveryBlockItsResetValue := by
  intro s
  refine ⟨_, rfl, rfl, ?bus, ?pool, ?slots, ?events, ?sched, ?banks, ?windows, ?refresh, ?capture,
    ?setup, ?ctrl, ?own⟩
  case bus | pool | sched | windows | refresh | capture | setup | own =>
    repeat' apply And.intro
    all_goals rfl
  case events =>
    refine ⟨rfl, rfl, rfl, ?_⟩
    show ((0 : BitVec 8) &&& 0 != 0) = false
    decide
  case slots => exact fun i => Vector.getElem_replicate i.isLt
  case banks => exact fun b => reset_bank _ rfl b
  case ctrl =>
    refine ⟨rfl, rfl, rfl, rfl, ?_, rfl, rfl, ?_, rfl, rfl, rfl, rfl, rfl, rfl, rfl, rfl, rfl⟩
    · show ∀ i : Fin 4, Ctrl.reset.copies.get i = none
      decide
    · show ∀ i : Fin 2, (Ctrl.reset.lanes.get i).outcome = .none ∧
        (Ctrl.reset.lanes.get i).lockTap = none ∧ (Ctrl.reset.lanes.get i).trace = []
      decide

end Sys2Proof.Machine

/-! The host bus: posts, the data port, the settings and the registers (chapters 2, 3, 6, 7, 10, 11). -/

namespace Sys2Proof.Machine

/-! ### Accepted posts -/

/-- Where a wake cause does nothing (R167, R169). -/
theorem State.wakeCause_of_noWake {s : State} (h : NoWake s) : s.wakeCause = s :=
  State.wakeCause_none h.1 h.2

theorem State.demandCause_of_noDemand {s : State} (h : s.capture.demand = false) :
    s.demandCause = s := by
  simp [State.demandCause, h]

theorem State.demandCause_of_noWake {s : State} (h : NoWake s) : s.demandCause = s := by
  unfold State.demandCause
  split
  · exact State.wakeCause_of_noWake h
  · rfl

/-- The last record counted in, a pool has one free record less (R27). -/
theorem Pool.free_queue {p : Pool} (h : p.free ≠ 0) (q : Queued) :
    Pool.free { p with queued := p.queued ++ [q] } + 1 = p.free := by
  unfold Pool.free Pool.live at *
  simp only [List.length_append, List.length_singleton]
  omega

theorem State.free_of_checkPost_accepted {s : State} (h : s.checkPost = .accepted) :
    s.pool.free ≠ 0 := by
  unfold State.checkPost at h
  split at h
  · cases h
  · assumption

/-- The fields of a submission that R23 does not check (R20, R189). -/
theorem Bus.submission_options {u : Bus} {r : Request} (h : u.submission = some r) :
    r.pattern = (if r.kind = .fill then some u.subPattern else none) ∧
      closeOfCode (u.subCtrl.toNat / 2048 % 4) = some r.closeOption ∧
      (r.urgent = true ↔ u.subCtrl.toNat / 8192 % 2 = 1) ∧
      (r.notify = true ↔ u.subCtrl.toNat / 16384 % 2 = 1) := by
  unfold Bus.submission at h
  split at h
  · next kind close _ hclose =>
    injection h with h
    subst h
    rw [toNat_field] at hclose
    have bit (i : Nat) : (u.subCtrl.getLsbD i = true ↔ u.subCtrl.toNat / 2 ^ i % 2 = 1) := by
      rw [BitVec.getLsbD, Nat.testBit_eq_decide_div_mod_eq, decide_eq_true_eq]
    exact ⟨rfl, hclose, bit 13, bit 14⟩
  · cases h

theorem closeOfCode_iff {code : Nat} {c : CloseOption} (h : closeOfCode code = some c) :
    (c = .policy ↔ code = 0) ∧ (c = .keep ↔ code = 1) ∧ (c = .shut ↔ code = 2) := by
  unfold closeOfCode at h
  split at h <;> cases h <;> simp

/-- The owners after a span is lent (R43, R44). -/
theorem spanLent_setOwner (s : State) (r : Request) :
    SpanLent s r (s.staging.setOwner r (some r.tag)).owner := by
  intro i
  obtain ⟨hin, hout⟩ := Staging.setOwner_covers s.staging r (some r.tag) i
  split
  · next h => exact hin h
  · next h => exact hout h

/-- What an accepted post does apart from its being a wake cause. -/
theorem State.accept_eq (s : State) (r : Request) :
    s.accept r =
      (PostQueued s r (s.staging.setOwner r (some r.tag)).owner).wakeCause := by
  unfold State.accept PostQueued
  rw [Staging.setOwner_owner]

/-- Settles O9: with no wake the acceptance is the queueing of the record. -/
theorem acceptedPostQueuesTheRecord : Obligations.AcceptedPostQueuesTheRecord := by
  intro v s r hlow hcheck hr hwake
  obtain ⟨htag, hcode, haddress, hlength, hslot⟩ := Bus.submission_fields hr
  obtain ⟨hpattern, hclose, hurgent, hnotify⟩ := Bus.submission_options hr
  obtain ⟨hpolicy, hkeep, hshut⟩ := closeOfCode_iff hclose
  refine ⟨_, ?_, spanLent_setOwner s r,
    Pool.free_queue (State.free_of_checkPost_accepted hcheck) _, htag, hcode, haddress, hlength, hslot,
    hpattern, hpolicy, hkeep, hshut, hurgent, hnotify⟩
  rw [exec_post_accepted v hlow hcheck hr, State.accept_eq]
  exact congrArg _ (State.wakeCause_of_noWake (by exact hwake))

/-! ### The data port -/

/-- A slot is LENT when its owner stands in the vector (R50). -/
theorem Staging.lentAt_eq {b : Staging} {a : BitVec 11} {o : Option Byte}
    (h : b.owner[a.toNat / 64]? = some o) : b.lentAt a = o.isSome := by
  obtain ⟨hlt, he⟩ := Vector.getElem?_eq_some_iff.1 h
  exact congrArg Option.isSome he

theorem toNat_succ (a : BitVec 11) : (a + 1).toNat = (a.toNat + 1) % 2048 := by
  simp [BitVec.toNat_add]

/-- A data-port write, by the owner of the slot at the pointer (R48, R50). -/
theorem exec_dataPortWrite {s : State} {v : Word} {o : Option Byte} (hlow : s.resetLow = false)
    (ho : s.staging.owner[s.bus.dpPtr.toNat / 64]? = some o) :
    exec (.dataPortWrite v) s = .next (match o with
      | none => { s with
          bus.dpPtr := s.bus.dpPtr + 1
          staging.words := s.staging.words.write s.bus.dpPtr.toNat v }
      | some _ => State.raiseFault { s with bus.dpPtr := s.bus.dpPtr + 1 } .portFault
          (s.bus.dpPtr.setWidth 16)) := by
  show s.take _ = _
  rw [State.take_high hlow, Staging.lentAt_eq ho]
  cases o <;> rfl

/-- A data-port read, by the owner of the slot at the pointer (R49, R50). -/
theorem exec_dataPortRead {s : State} {o : Option Byte} (hlow : s.resetLow = false)
    (ho : s.staging.owner[s.bus.dpPtr.toNat / 64]? = some o) :
    exec .dataPortRead s = .next (match o with
      | none => { s with
          bus.dpPtr := s.bus.dpPtr + 1, bus.dataOut := some (s.staging.word s.bus.dpPtr.toNat) }
      | some _ => State.raiseFault { s with
          bus.dpPtr := s.bus.dpPtr + 1, bus.dataOut := some 0 } .portFault
          (s.bus.dpPtr.setWidth 16)) := by
  show s.take _ = _
  rw [State.take_high hlow, Staging.lentAt_eq ho]
  cases o <;> rfl

/-- Settles O12: a write is a store at the pointer, and in a LENT slot the access is a fault. -/
theorem dataPortMovesTheWordAtThePointer : Obligations.DataPortMovesTheWordAtThePointer := by
  intro v s hlow
  have hwrite := fun o => exec_dataPortWrite (v := v) (o := o) hlow
  have hread := fun o => exec_dataPortRead (o := o) hlow
  refine ⟨fun hhost => ⟨⟨_, hwrite none hhost, rfl, ?_, toNat_succ s.bus.dpPtr⟩, hread none hhost⟩,
    fun tag hlent => ⟨_, s.events.raiseFault_faultTaken .portFault (s.bus.dpPtr.setWidth 16),
      hwrite (some tag) hlent, hread (some tag) hlent⟩⟩
  exact fun a => Staging.word_write s.staging s.bus.dpPtr.toNat a v

/-! ### Settings -/

/-- The range table of section 1.5. -/
theorem paramRanges_get (n : Fin 19) : paramRanges.get n =
    [(2, 31), (4, 63), (2, 31), (2, 31), (2, 15), (1, 15), (16, 511), (2, 15), (4, 31),
      (64, 1023), (256, 65535), (2, 31), (5, 255), (16, 1023), (8, 63), (0, 65535), (1, 255),
      (1, 255), (8, 1023)].getD n.val (0, 0) := by
  revert n
  decide

/-- Settles O13: the setting selects a parameter, and its range is that of the table. -/
theorem timingParameterIsStoredInItsRange : Obligations.TimingParameterIsStoredInItsRange := by
  intro v s n hlow hsel range
  have hn : s.bus.setting < 19 := by
    rw [Bus.setting, hsel]
    exact n.isLt
  have hfin : (⟨s.bus.setting, hn⟩ : Fin 19) = n := Fin.ext hsel
  have hrange : inParamRange n v.toNat = decide (range.1 ≤ v.toNat ∧ v.toNat ≤ range.2) := by
    rw [inParamRange, paramRanges_get]
  have hexec : exec (.timingParameterWrite v) s = .next
      (if inParamRange n v.toNat then
        { s with setup.host := s.setup.host.set n.val v.toNat n.isLt }
      else s.rangeFault) := by
    show s.take _ = _
    rw [State.take_high hlow, dif_pos hn]
    subst hfin
    rfl
  rw [hexec, hrange]
  refine ⟨fun hin => by rw [if_pos (decide_eq_true hin)], fun hout =>
    ⟨_, s.events.raiseFault_faultTaken .timingRange (s.bus.paramSel.setWidth 16), ?_⟩⟩
  rw [if_neg (by simpa using hout)]
  rfl

/-- The setting that PARAM_SEL selects is its number. -/
theorem Bus.setting_eq {u : Bus} {p : BitVec 5} (h : u.paramSel = p) : u.setting = p.toNat := by
  rw [Bus.setting, h]

/-- A setting write that is not stored (R182). -/
theorem State.rangeFault_faultTaken (s : State) :
    FaultTaken .timingRange (s.bus.paramSel.setWidth 16) s.events s.rangeFault.events :=
  s.events.raiseFault_faultTaken .timingRange _

/-- An urgent cause without an urgent claim does nothing. -/
theorem State.urgentCause_of_noClaim {s : State} (h : s.urgentClaim = false) : s.urgentCause = s := by
  simp [State.urgentCause, State.suspendForRefresh, h]

/-- An urgent cause where no wake, no doze entry and no alignment between probes stands. -/
theorem State.urgentCause_of_quiet {s : State} (hw : NoWake s)
    (hb : ¬ (s.ctrl.progress = .probing ∧ s.ctrl.probe = none ∧ s.ctrl.arrayState = .aligning)) :
    s.urgentCause = s := by
  have hsuspend : s.suspendForRefresh = s := by
    unfold State.suspendForRefresh
    refine if_neg fun hc => hb ?_
    simp only [Bool.and_eq_true, decide_eq_true_eq, Option.isNone_iff_eq_none] at hc
    exact ⟨hc.1.1.1, hc.1.1.2, hc.2⟩
  unfold State.urgentCause
  split
  · rw [State.wakeCause_of_noWake hw, hsuspend]
  · exact hsuspend

/-- An urgent cause suspends an ALIGN between its probes (R158). -/
theorem State.urgentCause_suspends {s : State} (hc : s.urgentClaim = true)
    (hp : s.ctrl.progress = .probing) (hn : s.ctrl.probe = none)
    (ha : s.ctrl.arrayState = .aligning) :
    s.urgentCause = { s with ctrl.progress := .suspendClear } := by
  have hw : NoWake s := ⟨by simp [ha], by simp [State.dozeEntry, hp]⟩
  simp [State.urgentCause, hc, State.wakeCause_of_noWake hw, State.suspendForRefresh, hp, hn, ha]

/-- A word is one of a list of numbers when its value is. -/
theorem word_eq_iff (v : Word) {n : Nat} (h : n < 65536) : v = BitVec.ofNat 16 n ↔ v.toNat = n := by
  rw [← BitVec.toNat_inj, BitVec.toNat_ofNat, Nat.mod_eq_of_lt h]

/-- A write of POLICY (R74, R188). -/
theorem policyOfCode_eq_none {n : Nat} (h : 2 < n) : policyOfCode n = none := by
  unfold policyOfCode
  split <;> first | omega | rfl

/-! What each setting's command does, with the test of its value (R188). -/

section
variable {s : State} {v : Word}

theorem exec_arrayDivWrite (hlow : s.resetLow = false) (hp : s.bus.paramSel = 19) :
    exec (.arrayDivWrite v) s = .next (if v.toNat = 1 ∨ v.toNat = 2 ∨ v.toNat = 4 then
      { s with setup.pendingDiv := v.toNat } else s.rangeFault) := by
  have hset : s.bus.setting = 19 := Bus.setting_eq hp
  show s.take _ = _
  rw [State.take_high hlow, if_pos hset]

theorem exec_geometryWrite_rows (hlow : s.resetLow = false) (hp : s.bus.paramSel = 20) :
    exec (.geometryWrite v) s = .next
      (if v.toNat = 4096 ∨ v.toNat = 8192 ∨ v.toNat = 16384 ∨ v.toNat = 32768 then
        { s with setup.hostGeometry.rows := v.toNat } else s.rangeFault) := by
  have hset : s.bus.setting = 20 := Bus.setting_eq hp
  show s.take _ = _
  rw [State.take_high hlow, if_pos hset]

theorem exec_geometryWrite_cols (hlow : s.resetLow = false) (hp : s.bus.paramSel = 21) :
    exec (.geometryWrite v) s = .next (if v.toNat = 512 ∨ v.toNat = 1024 then
      { s with setup.hostGeometry.cols := v.toNat } else s.rangeFault) := by
  have hset : s.bus.setting = 21 := Bus.setting_eq hp
  show s.take _ = _
  rw [State.take_high hlow, hset, if_neg (by decide), if_pos rfl]

theorem exec_policyWrite (hlow : s.resetLow = false) (hp : s.bus.paramSel = 22) :
    exec (.policyWrite v) s = .next (match policyOfCode v.toNat with
      | some p => { s with table.policy := p }
      | none => s.rangeFault) := by
  have hset : s.bus.setting = 22 := Bus.setting_eq hp
  exact (State.take_high hlow).trans (congrArg _ (if_pos hset))

theorem exec_ageLimitWrite (hlow : s.resetLow = false) (hp : s.bus.paramSel = 23) :
    exec (.ageLimitWrite v) s = .next (if v.toNat ≤ 15 then
      { s with sched.ageLimit := v.toNat } else s.rangeFault) := by
  have hset : s.bus.setting = 23 := Bus.setting_eq hp
  show s.take _ = _
  rw [State.take_high hlow, if_pos hset]

theorem exec_refreshSettingWrite_level (hlow : s.resetLow = false) (hp : s.bus.paramSel = 24) :
    exec (.refreshSettingWrite v) s = .next (if 1 ≤ v.toNat ∧ v.toNat ≤ 8 then
      State.urgentCause { s with refresh.urgentLevel := v.toNat } else s.rangeFault) := by
  have hset : s.bus.setting = 24 := Bus.setting_eq hp
  show s.take _ = _
  rw [State.take_high hlow, if_pos hset]

theorem exec_refreshSettingWrite_floor (hlow : s.resetLow = false) (hp : s.bus.paramSel = 25) :
    exec (.refreshSettingWrite v) s = .next (if -8 ≤ v.toInt ∧ v.toInt ≤ 0 then
      { s with refresh.pullinFloor := v.toInt } else s.rangeFault) := by
  have hset : s.bus.setting = 25 := Bus.setting_eq hp
  show s.take _ = _
  rw [State.take_high hlow, hset, if_neg (by decide), if_pos rfl]

theorem exec_autoAlignWrite (hlow : s.resetLow = false) (hp : s.bus.paramSel = 29) :
    exec (.autoAlignWrite v) s = .next (if v.toNat ≤ 1 then
      { s with ctrl.autoAlign := decide (v.toNat = 1) } else s.rangeFault) := by
  have hset : s.bus.setting = 29 := Bus.setting_eq hp
  show s.take _ = _
  rw [State.take_high hlow, if_pos hset]

end

/-- The values of a setting's set, as words and as numbers. -/
theorem word_mem_iff (v : Word) (l : List Nat) (h : ∀ n ∈ l, n < 65536) :
    v ∈ l.map (BitVec.ofNat 16) ↔ v.toNat ∈ l := by
  rw [List.mem_map]
  constructor
  · rintro ⟨n, hn, rfl⟩
    rwa [BitVec.toNat_ofNat, Nat.mod_eq_of_lt (h n hn)]
  · exact fun hv => ⟨v.toNat, hv, BitVec.ofNat_toNat ..⟩

theorem word_mem_div (v : Word) :
    v ∈ ([1, 2, 4] : List Word) ↔ v.toNat = 1 ∨ v.toNat = 2 ∨ v.toNat = 4 := by
  have := word_mem_iff v [1, 2, 4] (by decide)
  simpa using this

theorem word_mem_rows (v : Word) : v ∈ ([4096, 8192, 16384, 32768] : List Word) ↔
    v.toNat = 4096 ∨ v.toNat = 8192 ∨ v.toNat = 16384 ∨ v.toNat = 32768 := by
  have := word_mem_iff v [4096, 8192, 16384, 32768] (by decide)
  simpa using this

theorem word_mem_cols (v : Word) :
    v ∈ ([512, 1024] : List Word) ↔ v.toNat = 512 ∨ v.toNat = 1024 := by
  have := word_mem_iff v [512, 1024] (by decide)
  simpa using this

/-- Settles O14: each setting's set of values is the one that its command tests. -/
theorem settingsAreStoredOrFault : Obligations.SettingsAreStoredOrFault := by
  intro v s hlow
  refine ⟨⟨fun hp hv => ?_, fun hp hv => ?_, fun hp hv => ?_, fun hp => ⟨?_, ?_, ?_⟩, fun hp hv => ?_,
    fun hp h1 h8 => ⟨fun hq => ?_, fun hc hb => ?_⟩, fun hp h1 h2 => ?_, fun hp hv => ?_⟩,
    _, s.rangeFault_faultTaken, fun hp hv => ?_, fun hp hv => ?_, fun hp hv => ?_, fun hp hv => ?_,
    fun hp hv => ?_, fun hp hv => ?_, fun hp hv => ?_, fun hp hv => ?_⟩
  · rw [exec_arrayDivWrite hlow hp, if_pos ((word_mem_div v).1 hv)]
  · rw [exec_geometryWrite_rows hlow hp, if_pos ((word_mem_rows v).1 hv)]
  · rw [exec_geometryWrite_cols hlow hp, if_pos ((word_mem_cols v).1 hv)]
  · rintro rfl
    exact exec_policyWrite hlow hp
  · rintro rfl
    exact exec_policyWrite hlow hp
  · rintro rfl
    exact exec_policyWrite hlow hp
  · rw [exec_ageLimitWrite hlow hp, if_pos hv]
  · rw [exec_refreshSettingWrite_level hlow hp, if_pos ⟨h1, h8⟩]
    refine congrArg _ ?_
    rcases hq with hlt | ⟨hw, hb⟩
    · exact State.urgentCause_of_noClaim (decide_eq_false (Int.not_le.2 hlt))
    · exact State.urgentCause_of_quiet hw hb
  · rw [exec_refreshSettingWrite_level hlow hp, if_pos ⟨h1, h8⟩]
    obtain ⟨hprobing, hprobe, halign⟩ := hb
    exact congrArg _ (State.urgentCause_suspends (decide_eq_true hc) hprobing hprobe halign)
  · rw [exec_refreshSettingWrite_floor hlow hp, if_pos ⟨h1, h2⟩]
  · rw [exec_autoAlignWrite hlow hp, if_pos hv, ← decide_eq_decide.2 (word_eq_iff v (n := 1) (by decide))]
    rfl
  · rw [exec_arrayDivWrite hlow hp, if_neg (mt (word_mem_div v).2 hv)]
    rfl
  · rw [exec_geometryWrite_rows hlow hp, if_neg (mt (word_mem_rows v).2 hv)]
    rfl
  · rw [exec_geometryWrite_cols hlow hp, if_neg (mt (word_mem_cols v).2 hv)]
    rfl
  · rw [exec_policyWrite hlow hp, policyOfCode_eq_none hv]
    rfl
  · rw [exec_ageLimitWrite hlow hp, if_neg (by omega)]
    rfl
  · rw [exec_refreshSettingWrite_level hlow hp, if_neg (by omega)]
    rfl
  · rw [exec_refreshSettingWrite_floor hlow hp, if_neg (by omega)]
    rfl
  · rw [exec_autoAlignWrite hlow hp, if_neg (by omega)]
    rfl

/-! ### Ring descriptor, lane delays, consumer offset -/

theorem exec_ringDescriptorWrite {s : State} {v : Word} (hlow : s.resetLow = false) :
    exec (.ringDescriptorWrite v) s = .next (
      if s.bus.setting = 26 then
        if s.capture.state = .idle then
          { s with capture.base := s.bus.extended v, capture.producer := 0, capture.consumer := 0 }
        else s.rangeFault
      else if s.bus.setting = 27 then
        if s.capture.state = .idle then
          { s with capture.size := v, capture.producer := 0, capture.consumer := 0 }
        else s.rangeFault
      else if s.bus.setting = 28 then
        if s.capture.state = .idle ∨ ((s.bus.extended v).toNat % 32 = 0 ∧
            (s.bus.extended v).toNat < s.capture.ringWords) then
          { s with capture.mark := s.bus.extended v }
        else s.rangeFault
      else s) := by
  show s.take _ = _
  rw [State.take_high hlow]

/-- Settles O15: the three settings, in IDLE and in a run. -/
theorem ringDescriptorFollowsTheCaptureState : Obligations.RingDescriptorFollowsTheCaptureState := by
  intro v s hlow w
  rw [exec_ringDescriptorWrite hlow]
  refine ⟨fun hidle => ⟨fun hp => ?_, fun hp => ?_, fun hp => ?_⟩,
    fun hrun => ⟨fun hp h1 h2 => ?_, fun hp => ⟨_, s.rangeFault_faultTaken, ?_⟩⟩⟩
  · simp [Bus.setting_eq hp, hidle, Bus.extended, w]
  · simp [Bus.setting_eq hp, hidle]
  · simp [Bus.setting_eq hp, hidle, Bus.extended, w]
  · have hmark : (s.bus.extended v).toNat % 32 = 0 ∧
        (s.bus.extended v).toNat < s.capture.ringWords := ⟨h1, h2⟩
    have hset : s.bus.setting = 28 := Bus.setting_eq hp
    rw [hset, if_neg (by decide), if_neg (by decide), if_pos rfl, if_pos (Or.inr hmark)]
    rfl
  · rcases hp with hp | hp | ⟨hp, hmark⟩
    · simp [Bus.setting_eq hp, hrun]
      rfl
    · simp [Bus.setting_eq hp, hrun]
      rfl
    · have hmark : ¬ (s.capture.state = .idle ∨ ((s.bus.extended v).toNat % 32 = 0 ∧
          (s.bus.extended v).toNat < s.capture.ringWords)) := by
        rintro (h | h)
        · exact hrun h
        · exact hmark h
      have hset : s.bus.setting = 28 := Bus.setting_eq hp
      rw [hset, if_neg (by decide), if_neg (by decide), if_pos rfl, if_neg hmark]
      rfl

/-- An alignment runs in ALIGNING, and in STARTING at the work that log 18 names. -/
theorem Ctrl.alignmentRuns_iff (c : Ctrl) : c.alignmentRuns = true ↔
    (c.arrayState = .aligning ∨ (c.arrayState = .starting ∧
      c.progress ∈ [.due .align, .probing, .probeDue, .endClear, .endSettle])) := by
  unfold Ctrl.alignmentRuns
  cases c.arrayState <;> simp only [reduceCtorEq, false_or, true_or, false_and, true_and]
  split <;> simp_all

/-- The lane's delay that a setting of 30 or 31 selects (R160). -/
theorem exec_laneDelayWrite {s : State} {v : Word} {lane : Fin 2} (hlow : s.resetLow = false)
    (hp : s.bus.paramSel.toNat = 30 + lane.val) :
    exec (.laneDelayWrite v) s = .next (
      if s.ctrl.alignmentRuns then s.raiseFault .delayBusy (s.bus.paramSel.setWidth 16)
      else if v.toNat ≤ 63 then
        { s with ctrl.delays := s.ctrl.delays.set lane.val (v.setWidth 6) lane.isLt }
      else s.rangeFault) := by
  have hset : s.bus.setting = 30 + lane.val := hp
  show s.take _ = _
  rw [State.take_high hlow, hset, if_pos (Nat.le_add_right 30 lane.val)]
  obtain ⟨n, hn⟩ := lane
  interval_cases n <;> rfl

/-- Settles O16: the test of DELAY_BUSY comes before that of the tap. -/
theorem laneDelayIsBusyDuringAnAlignment : Obligations.LaneDelayIsBusyDuringAnAlignment := by
  intro v s lane hlow hp busy
  have hruns : s.ctrl.alignmentRuns = true ↔ busy := s.ctrl.alignmentRuns_iff
  rw [exec_laneDelayWrite hlow hp]
  refine ⟨fun hb => ⟨_, s.events.raiseFault_faultTaken .delayBusy (s.bus.paramSel.setWidth 16), ?_⟩,
    fun hb hv => ?_, fun hb hv => ⟨_, s.rangeFault_faultTaken, ?_⟩⟩
  · rw [if_pos (hruns.2 hb)]
    rfl
  · rw [if_neg (mt hruns.1 hb), if_pos hv]
  · rw [if_neg (mt hruns.1 hb), if_neg (by omega)]
    rfl

/-- The offset of a consumer write (R188). -/
theorem Bus.consumerOffset_eq (u : Bus) (v : Word) :
    u.consumerOffset v = u.writeExt.toNat % 32 * 65536 + v.toNat := by
  unfold Bus.consumerOffset
  rw [BitVec.toNat_append, BitVec.toNat_setWidth, ← Nat.shiftLeft_add_eq_or_of_lt v.isLt,
    Nat.shiftLeft_eq]

/-- Settles O19: the check is R129's, and without a wake the offset alone moves. -/
theorem consumerWriteMovesOverWrittenChunks : Obligations.ConsumerWriteMovesOverWrittenChunks := by
  intro v s hlow w ring fill passes
  have hoffset : s.bus.consumerOffset v = w := s.bus.consumerOffset_eq v
  have hexec : exec (.consumerWrite v) s = .next (
      if s.capture.consumerPasses w then State.demandCause { s with capture.consumer := w }
      else s.raiseFault .consumerFault (BitVec.ofNat 16 (w / 32))) := by
    show s.take _ = _
    rw [State.take_high hlow, hoffset]
  have hpasses : s.capture.consumerPasses w = true ↔ passes := decide_eq_true_iff
  rw [hexec]
  refine ⟨fun hp hquiet => ?_, fun hp =>
    ⟨_, s.events.raiseFault_faultTaken .consumerFault (BitVec.ofNat 16 (w / 32)), ?_⟩⟩
  · rw [if_pos (hpasses.2 hp)]
    refine congrArg _ ?_
    rcases hquiet with hw | hd
    · exact State.demandCause_of_noWake hw
    · exact State.demandCause_of_noDemand hd
  · rw [if_neg (mt hpasses.1 hp)]
    rfl

/-! ### Registers without a check, and the write cycles -/

/-- A write to a register that holds no bits of its own is ignored (R186). -/
theorem Bus.plainWrite_ignored (u : Bus) {o : BitVec 6} (v : Word)
    (h : o ∉ ([0x00, 0x01, 0x02, 0x03, 0x04, 0x05, 0x0F, 0x10] : List (BitVec 6))) :
    u.plainWrite o v = u := by
  have hne (n : Nat) (hn : BitVec.ofNat 6 n ∈
      ([0x00, 0x01, 0x02, 0x03, 0x04, 0x05, 0x0F, 0x10] : List (BitVec 6))) : o.toNat ≠ n := by
    rintro rfl
    rw [BitVec.ofNat_toNat, BitVec.setWidth_eq] at hn
    exact h hn
  unfold Bus.plainWrite
  split
  case h_9 => rfl
  all_goals
    next e => exact absurd e (hne _ (by decide))

/-- Settles O17: each write is the one store of its command. -/
theorem plainWritesStoreTheirBits : Obligations.PlainWritesStoreTheirBits := by
  intro v s hlow
  have plain (o : BitVec 6) : exec (.plainRegisterWrite o v) s =
      .next { s with bus := s.bus.plainWrite o v } := by
    show s.take _ = _
    rw [State.take_high hlow]
  refine ⟨?_, fun w hw => ?_, ?_, ?_, plain _, plain _, plain _, plain _, plain _, plain _, plain _,
    plain _, fun o ho => ?_⟩
  · show s.take _ = _
    rw [State.take_high hlow]
  · show s.take _ = _
    rw [State.take_high hlow, if_neg hw]
  · show s.take _ = _
    rw [State.take_high hlow]
    rfl
  · show s.take _ = _
    rw [State.take_high hlow]
  · rw [plain o, Bus.plainWrite_ignored _ _ ho]

/-- A write to the command register is a command code's command, or an unknown one (R190). -/
theorem commandOfCode_wellFormed (v : Word) : (commandOfCode v).wellFormed = true := by
  unfold commandOfCode
  split
  case h_12 =>
    simp only [Instr.wellFormed, commandCode, Bool.not_eq_true', decide_eq_false_iff_not, imp_false] at *
    omega
  all_goals rfl

theorem settingWrite_wellFormed (p : BitVec 5) (v : Word) : (settingWrite p v).wellFormed = true := by
  unfold settingWrite
  split <;> rfl

/-- A write cycle at an offset without a command of its own is a plain one (R186, R187). -/
theorem Bus.writeCommand_wellFormed (u : Bus) (offset : BitVec 6) (v : Word) :
    (u.writeCommand offset v).wellFormed = true := by
  unfold Bus.writeCommand
  split
  case h_5 => exact commandOfCode_wellFormed v
  case h_6 => exact settingWrite_wellFormed u.paramSel v
  case h_14 =>
    have hlt := offset.isLt
    simp only [Instr.wellFormed, plainOffset, decide_eq_true_eq, imp_false] at *
    omega
  all_goals rfl

theorem commandOfCode_unknown {v : Word} (h : v = 0 ∨ 11 < v.toNat) :
    commandOfCode v = .unknownCommandWrite v := by
  have hv : v.toNat = 0 ∨ 11 < v.toNat := h.imp_left fun e => by rw [e]; rfl
  unfold commandOfCode
  split <;> first | omega | rfl

/-- Settles O20: the table's rows, and the fault of a value that is no code. -/
theorem everyWriteCycleIsACommand : Obligations.EveryWriteCycleIsACommand := by
  refine ⟨Bus.writeCommand_wellFormed, fun v s hlow hv =>
    ⟨commandOfCode_unknown hv, _, s.events.raiseFault_faultTaken .commandFault v, ?_⟩⟩
  have hcode : ¬ (1 ≤ v.toNat ∧ v.toNat ≤ 11) := by
    rcases hv with rfl | hv
    · decide
    · omega
  show s.take _ = _
  rw [State.take_high hlow, if_neg hcode]
  rfl

end Sys2Proof.Machine

/-! The commands of the command register (R190): procedures, retain exit, CLOSE_ALL, ABORT, capture runs,
and what a refused command changes. -/

namespace Sys2Proof.Machine

/-! ### Procedure commands -/

/-- An accepted command is its effect with its answer (R190). -/
theorem State.command_of_accepted {s u : State} {code : BitVec 4} {o : CommandOutcome}
    (hlow : s.resetLow = false) (ho : o = .accepted) :
    s.command code o u = .next (u.answer code .accepted) := by
  rw [ho, State.command_accepted hlow]

theorem State.command_of_refused {s u : State} {code : BitVec 4} {o o' : CommandOutcome}
    (hlow : s.resetLow = false) (ho : o = o') (hr : o' ≠ .accepted) :
    s.command code o u = .next (s.answer code o') := by
  rw [ho, State.command_refused hlow hr]

theorem State.setModeOutcome_accepted {s : State} (ha : s.procedureAllowed = true)
    (himage : ImageValid s.ctrl.shadows) : s.setModeOutcome = .accepted := by
  simp [State.setModeOutcome, ha, (validImage_iff _).2 himage]

theorem State.procedureAllowed_of {s : State}
    (ha : s.ctrl.arrayState = .ready ∨ s.ctrl.arrayState = .dozing)
    (hi : s.ctrl.indication ≠ .retainPending) : s.procedureAllowed = true :=
  decide_eq_true ⟨ha, hi⟩

theorem State.retainAllowed_of {s : State}
    (ha : s.ctrl.arrayState = .ready ∨ s.ctrl.arrayState = .dozing)
    (hi : s.ctrl.indication = .none) (hc : s.capture.state = .idle) : s.retainAllowed = true :=
  decide_eq_true ⟨ha, hc, hi⟩

/-- Asking for the array in READY raises the drain claim, and abandons a doze entry (R82, R167). -/
theorem State.askForArray_ready {s : State} (ha : s.ctrl.arrayState = .ready) (d : Drain) :
    s.askForArray d = { s with
      ctrl.progress := .draining d
      ctrl.dozeTimer := if s.dozeEntry = true then s.dozeStart s.now else s.ctrl.dozeTimer
      sched.job :=
        if s.dozeEntry = true ∧ s.sched.job = some .procedure then none else s.sched.job } := by
  unfold State.askForArray
  by_cases hd : s.dozeEntry = true
  · rw [State.wakeCause_abandons (by simp [ha]) hd]
    simp [ha, hd, State.abandonDoze]
  · rw [State.wakeCause_none (by simp [ha]) (by simpa using hd)]
    simp [ha, hd]

/-- The doze idle timer that starts now, in READY (R164). -/
theorem dozeTimerAfter_ready {s : State} (ha : s.ctrl.arrayState = .ready) :
    DozeTimerAfter s s.now = s.dozeStart s.now :=
  if_pos ha

/-- Settles O22: the drain claim of each procedure, with the procedure's own fields. -/
theorem procedureCommandsInReadyRaiseTheDrain :
    Obligations.ProcedureCommandsInReadyRaiseTheDrain := by
  intro s hlow ha job
  refine ⟨fun hi himage => ⟨s.setup.loadWorking.working, s.setup.loadWorking_get, ?_⟩, fun hi => ?_,
    fun hi hc => ?_⟩
  · refine (State.command_of_accepted hlow (State.setModeOutcome_accepted
      (State.procedureAllowed_of (Or.inl ha) hi) himage)).trans (congrArg _ ?_)
    have hu := State.askForArray_ready (s := { s with setup := s.setup.loadWorking }) ha .setMode
    rw [State.setMode, hu]
    rfl
  · refine (State.command_of_accepted hlow (if_pos
      (State.procedureAllowed_of (Or.inl ha) hi))).trans (congrArg _ ?_)
    rw [State.startAlign, State.askForArray_ready ha]
    rfl
  · refine (State.command_of_accepted hlow (if_pos
      (State.retainAllowed_of (Or.inl ha) hi hc))).trans (congrArg _ ?_)
    rw [State.askForArray_ready ha, dozeTimerAfter_ready ha]
    rfl

/-- A wake begins in DOZING, where the issue of NAP_OUT starts no doze idle timer (R169). -/
theorem State.beginWake_eq {s : State} (hd : s.ctrl.arrayState = .dozing) :
    s.beginWake = WakeFrom s s.setup.napExitTime := by
  simp [State.beginWake, State.issue, WakeFrom, hd]

theorem State.askForArray_dozing {s : State} (hd : s.ctrl.arrayState = .dozing) (d : Drain) :
    s.askForArray d = if s.waking = true then s else WakeFrom s s.setup.napExitTime := by
  simp [State.askForArray, State.wakeCause, hd, State.beginWake_eq hd]

/-- Settles O23: the wake of each procedure's command, with the procedure's own fields. -/
theorem procedureCommandsWakeADozingArray : Obligations.ProcedureCommandsWakeADozingArray := by
  intro s hlow hd woken
  refine ⟨fun hi himage => ⟨s.setup.loadWorking.working, s.setup.loadWorking_get, ?_⟩, fun hi => ?_,
    fun hi hc => ?_⟩
  · refine (State.command_of_accepted hlow (State.setModeOutcome_accepted
      (State.procedureAllowed_of (Or.inr hd) hi) himage)).trans (congrArg _ ?_)
    have hu := State.askForArray_dozing (s := { s with setup := s.setup.loadWorking }) hd .setMode
    have hexit : s.setup.loadWorking.napExitTime = s.setup.host.get 11 := s.setup.loadWorking_get 11
    rw [State.setMode, hu, ← hexit]
    show _ = woken _ _
    unfold woken
    cases hw : s.waking <;> simp only [show State.waking { s with setup := s.setup.loadWorking } =
      s.waking from rfl, hw] <;> rfl
  · refine (State.command_of_accepted hlow (if_pos
      (State.procedureAllowed_of (Or.inr hd) hi))).trans (congrArg _ ?_)
    rw [State.startAlign, State.askForArray_dozing hd]
    unfold woken
    cases hw : s.waking <;> rfl
  · refine (State.command_of_accepted hlow (if_pos
      (State.retainAllowed_of (Or.inr hd) hi hc))).trans (congrArg _ ?_)
    rw [State.askForArray_dozing hd]
    unfold woken
    cases hw : s.waking <;> rfl

/-! ### Retain exit -/

/-- Settles O24: without a held or running exit, the command holds it or begins it. -/
theorem retainExitIsHeldOrBegins : Obligations.RetainExitIsHeldOrBegins := by
  intro s hlow ha hx hp
  have haccepted : (decide (s.ctrl.arrayState = .retaining) && !s.ctrl.exitUnderWay) = true := by
    simp [ha, Ctrl.exitUnderWay, hx, hp]
  have hexec : exec .retainExit s = .next ((if s.ctrl.retainMin = none then s.beginExit
      else { s with ctrl.exitHeld := true }).answer 5 .accepted) :=
    State.command_of_accepted hlow (if_pos haccepted)
  refine ⟨fun point hr => hexec.trans ?_, fun hr => hexec.trans ?_⟩
  · rw [if_neg (by simp [hr])]
    rfl
  · rw [if_pos hr]
    simp [State.beginExit, State.issue, State.answer, ha, hx, Setup.retainExitTime]

/-! ### CLOSE_ALL and CLEAR_RETENTION -/

/-- Settles O25: the marks of CLOSE_ALL, with and without a doze entry to abandon. -/
theorem closeAllMarksAndClearRetentionClears : Obligations.CloseAllMarksAndClearRetentionClears := by
  intro s hlow
  refine ⟨fun ha => ?_, fun ha => State.command_of_accepted hlow (if_neg ha)⟩
  intro rowOpen
  refine ⟨(s.table.mapBanks Bank.markOpen).banks, fun hq => ?_, fun hp ho => ?_,
    s.table.mapBanks_get Bank.markOpen⟩
  · refine (State.command_of_accepted hlow (if_pos ha)).trans (congrArg _ ?_)
    have hno : (s.ctrl.progress = .draining .doze && s.someRowOpen) = false := by
      rw [Bool.and_eq_false_iff]
      exact hq.imp decide_eq_false decide_eq_false
    rw [State.closeAll, if_neg (by simp [hno])]
    rfl
  · refine (State.command_of_accepted hlow (if_pos ha)).trans (congrArg _ ?_)
    have hyes : (s.ctrl.progress = .draining .doze && s.someRowOpen) = true :=
      Bool.and_eq_true_iff.2 ⟨decide_eq_true hp, decide_eq_true ho⟩
    rw [State.closeAll, if_pos hyes]
    rfl

/-! ### ABORT -/

/-- The suspect field by the kind (R33). -/
theorem suspectField_eq (k : Kind) (lost : Bool) :
    suspectField k lost = if k = .read ∨ k = .compare then some lost else none := by
  cases k <;> rfl

theorem State.abortActive_none {s : State} (h : s.pool.active = none) : s.abortActive = s := by
  simp [State.abortActive, h]

/-- With one of its bursts in flight the ACTIVE record is being aborted (R97). -/
theorem State.abortActive_inFlight {s : State} {a : Active} (h : s.pool.active = some a)
    (hf : s.sched.recordInFlight = true) :
    s.abortActive = { s with
      sched := s.sched.endRecordJob, pool.active := some { a with aborting := true } } := by
  simp [State.abortActive, h, hf]

/-- With none of its bursts in flight the ACTIVE record is finished at the command (R97). -/
theorem State.abortActive_finished {s : State} {a : Active} (h : s.pool.active = some a)
    (hf : s.sched.recordInFlight = false) :
    s.abortActive = State.finishActive { s with sched := s.sched.endRecordJob } a .aborted none := by
  simp [State.abortActive, h, hf]

/-- The flags after two rounds of COMPLETION (R39). -/
theorem flags_or_flags (p q : Prop) [Decidable p] [Decidable q] (f m : BitVec 8) :
    (if q then (if p then f ||| m else f) ||| m else if p then f ||| m else f) =
      if p ∨ q then f ||| m else f := by
  by_cases hp : p <;> by_cases hq : q <;> simp [hp, hq, BitVec.or_assoc]

/-- Settles O26: the QUEUED records are retired, then the ACTIVE one is finished or being aborted. -/
theorem abortFinishesTheWaitingRecords : Obligations.AbortFinishesTheWaitingRecords := by
  intro s hlow ha suspect inFlight finished requests
  have hexec : exec .abort s = .next (s.abortAll.answer 7 .accepted) :=
    State.command_of_accepted hlow (if_neg ha)
  have hsuspect (k : Kind) : suspectField k s.refresh.retentionLost = suspect k :=
    suspectField_eq k _
  obtain ⟨owner, hqueued, howner⟩ :=
    State.retireQueued_spec s.pool.queued { s with pool.queued := [] }
  have hcovers (i : Fin 32) (r : Request) : SpanCovers r i ↔ r.covers i.val := Iff.rfl
  rw [hexec, State.abortAll]
  generalize State.retireQueued { s with pool.queued := [] } s.pool.queued = u at hqueued
  have hactive : u.pool.active = s.pool.active := by rw [hqueued]
  have hsched : u.sched = s.sched := by rw [hqueued]
  by_cases hfinished : finished = []
  · have hrequests : requests = s.pool.queued.map fun q => q.req := by
      simp [requests, hfinished]
    refine ⟨owner, ?_, fun i => ?_⟩
    · cases hact : s.pool.active with
      | none =>
        rw [State.abortActive_none (hactive.trans hact), hqueued]
        simp [State.answer, hact, hrequests, hfinished, Queued.abortedCompletion, hsuspect,
          Event.mask, Event.bit, Function.comp_def]
      | some a =>
        have hf : inFlight := by
          by_contra hn
          simp [finished, hn, hact] at hfinished
        rw [State.abortActive_inFlight (hactive.trans hact) (by rw [hsched]; exact hf), hqueued]
        simp [State.answer, hrequests, hfinished, Queued.abortedCompletion, hsuspect, hf,
          Event.mask, Event.bit, Function.comp_def, Sched.endRecordJob]
    · rw [hrequests]
      simpa [hcovers] using howner i
  · have hf : ¬ inFlight := fun hf => hfinished (if_pos hf)
    obtain ⟨a, hact⟩ : ∃ a, s.pool.active = some a := by
      by_contra hn
      rw [← Option.ne_none_iff_exists'] at hn
      simp [finished, hf, not_not.1 hn] at hfinished
    have hone : finished = [a] := by simp [finished, hf, hact]
    have hrequests : requests = s.pool.queued.map (fun q => q.req) ++ [a.req] := by
      simp [requests, hone]
    have hrecord : u.sched.recordInFlight = false := by
      rw [hsched]
      exact Bool.eq_false_iff.2 hf
    rw [State.abortActive_finished (hactive.trans hact) hrecord, hqueued]
    refine ⟨(Staging.setOwner { s.staging with owner := owner } a.req none).owner, ?_, fun i => ?_⟩
    · simp only [State.finishActive, State.retire]
      rw [Staging.setOwner_owner]
      simp [State.answer, hact, hrequests, hone, Queued.abortedCompletion, Active.completion, hsuspect,
        hf, Event.mask, Event.bit, Function.comp_def, Sched.endRecordJob]
      exact flags_or_flags _ _ _ _
    · obtain ⟨hin, hout⟩ := Staging.setOwner_covers { s.staging with owner := owner } a.req none i
      obtain ⟨qin, qout⟩ := howner i
      rw [hrequests]
      constructor
      · rintro ⟨r, hr, hc⟩
        by_cases hcov : a.req.covers i.val
        · exact hin hcov
        · rw [hout hcov]
          refine qin ?_
          rcases List.mem_append.1 hr with hr | hr
          · obtain ⟨q, hq, rfl⟩ := List.mem_map.1 hr
            exact ⟨q, hq, hc⟩
          · rw [List.mem_singleton.1 hr] at hc
            exact absurd hc hcov
      · intro hn
        rw [hout fun hc => hn ⟨a.req, by simp, hc⟩]
        exact qout fun ⟨q, hq, hc⟩ => hn ⟨q.req, List.mem_append_left _ (List.mem_map_of_mem hq), hc⟩

/-! ### Capture runs -/

/-- Settles O27: the two commands, and the padding of a FIFO that is not empty. -/
theorem captureRunsBeginAndEnd : Obligations.CaptureRunsBeginAndEnd := by
  intro s hlow
  refine ⟨fun hc hi ha hbase hsize hfits hmark hlt => ?_, fun hc hf => ?_, fun hc hf hq =>
    ⟨padding s.capture.fifo.length, Nat.lt_succ_of_le (padding_spec _).1, (padding_spec _).2, ?_⟩⟩
  · refine State.command_of_accepted hlow ?_
    have hstate : s.capture.state = .idle ∧ s.ctrl.indication ≠ .retainPending ∧
        (s.ctrl.arrayState = .ready ∨ s.ctrl.arrayState = .setting ∨ s.ctrl.arrayState = .aligning ∨
          s.ctrl.arrayState = .dozing) := ⟨hc, hi, by simpa using ha⟩
    have hring : s.capture.ringValid s.setup.workGeometry = true :=
      decide_eq_true ⟨hbase, hsize, hfits, hmark, hlt⟩
    rw [State.captureStartOutcome, if_pos hstate, if_pos hring]
  · refine (State.command_of_accepted hlow (if_pos hc)).trans (congrArg _ ?_)
    simp [State.captureStop, hf, padding, State.raiseEvent, State.answer, Event.mask, Event.bit]
  · refine (State.command_of_accepted hlow (if_pos hc)).trans (congrArg _ ?_)
    let u : State := { s with
      capture.state := .draining
      capture.assembler := none
      capture.fifo := s.capture.fifo ++ List.replicate (padding s.capture.fifo.length) 0
      capture.pad := padding s.capture.fifo.length }
    have hu : u.demandCause = u := by
      rcases hq with hw | hr
      · exact State.demandCause_of_noWake hw
      · refine State.demandCause_of_noDemand ?_
        have hroom : u.capture.hasRoom = false := hr
        rw [Capture.demand, hroom, Bool.and_false]
    have hstop : s.captureStop = u.demandCause := by
      rw [State.captureStop, if_neg (by simpa using hf)]
    rw [hstop, hu]
    rfl

/-! ### Refused commands -/

theorem State.procedureAllowed_iff (s : State) : s.procedureAllowed = true ↔
    ¬ (s.ctrl.arrayState ∉ [ArrayState.ready, .dozing] ∨ s.ctrl.indication = .retainPending) := by
  simp [State.procedureAllowed, or_iff_not_imp_left]

/-- Where a capture run may begin (R124). -/
theorem State.captureMayStart_iff (s : State) :
    (s.capture.state = .idle ∧ s.ctrl.indication ≠ .retainPending ∧
      (s.ctrl.arrayState = .ready ∨ s.ctrl.arrayState = .setting ∨ s.ctrl.arrayState = .aligning ∨
        s.ctrl.arrayState = .dozing)) ↔
    ¬ (s.capture.state ≠ .idle ∨ s.ctrl.indication = .retainPending ∨
      s.ctrl.arrayState ∉ [ArrayState.ready, .setting, .aligning, .dozing]) := by
  simp only [List.mem_cons, List.not_mem_nil, or_false]
  tauto

/-- Settles O30: each command's outcome, where it is not ACCEPTED. -/
theorem refusedCommandsChangeOnlyTheStatus : Obligations.RefusedCommandsChangeOnlyTheStatus := by
  intro s hlow a refused barred noCapture
  have hbarred : s.procedureAllowed = true ↔ ¬ barred := s.procedureAllowed_iff
  have hcapture := s.captureMayStart_iff
  refine ⟨fun hb => ⟨?_, ?_⟩, fun hb himage => ?_, fun hr => ?_, fun hx => ?_, fun ha => ?_,
    fun ha => ⟨?_, ?_⟩, fun hn => ?_, fun hn hring => ?_, fun hc => ?_⟩
  · refine State.command_of_refused hlow (if_pos ?_) nofun
    have : ¬ s.procedureAllowed = true := by rwa [hbarred, not_not]
    simpa using this
  · exact State.command_of_refused hlow (if_neg (by rwa [hbarred, not_not])) nofun
  · refine State.command_of_refused hlow ?_ nofun
    rw [State.setModeOutcome, if_neg (by simp [hbarred.2 hb]),
      if_neg (mt (validImage_iff _).1 himage)]
  · refine State.command_of_refused hlow (if_neg fun hallowed => ?_) nofun
    obtain ⟨hstate, hidle, hind⟩ := of_decide_eq_true hallowed
    rcases hr with hr | hr | hr
    · exact hr (by simpa using hstate)
    · exact hr hidle
    · exact hr hind
  · refine State.command_of_refused hlow (if_neg fun hallowed => ?_) nofun
    simp only [Bool.and_eq_true, decide_eq_true_eq, Bool.not_eq_true', Ctrl.exitUnderWay,
      Bool.or_eq_false_iff] at hallowed
    obtain ⟨hstate, hheld, hwork⟩ := hallowed
    rcases hx with hx | hx | ⟨p, c, hx⟩ | hx | hx
    · exact hx hstate
    · rw [hheld] at hx
      cases hx
    all_goals
      rw [hx] at hwork
      cases hwork
  · exact State.command_of_refused hlow (if_neg ha) nofun
  · exact State.command_of_refused hlow (if_pos ha) nofun
  · exact State.command_of_refused hlow (if_pos ha) nofun
  · exact State.command_of_refused hlow (if_neg fun h => hcapture.1 h hn) nofun
  · refine State.command_of_refused hlow ?_ nofun
    have hinvalid : ¬ s.capture.ringValid s.setup.workGeometry = true :=
      fun h => hring (of_decide_eq_true h)
    rw [State.captureStartOutcome, if_pos (hcapture.2 hn), if_neg hinvalid]
  · exact State.command_of_refused hlow (if_neg hc) nofun

end Sys2Proof.Machine

/-! SOFT_RESET at once and after a wait (R101, R162, R177, R191). -/

namespace Sys2Proof.Machine

/-! ### The work at the command -/

/-- A wake or an exit sequence runs on (R101, R177). -/
theorem Progress.runsThroughReset_iff (p : Progress) : p.runsThroughReset = true ↔
    (∃ point, p = .waking point) ∨ (∃ point changed, p = .exitTime point changed) ∨
      p ∈ [Progress.exitLoad, .exitSettle] := by
  cases p <;> simp [Progress.runsThroughReset]

theorem Progress.halted_of_runs {p : Progress} (h : p.runsThroughReset = true) : p.halted = p := by
  cases p <;> first | rfl | cases h

/-- The work that stands at the command: none, a drain claim, a doze entry, a retain entry. -/
theorem Progress.halted_of_stands {p : Progress}
    (h : p = .idle ∨ (∃ d, p = .draining d) ∨
      p ∈ [Progress.shutAll .doze, .due .doze, .shutAll .retain, .renewing .retain, .due .retain]) :
    p.halted = p ∧ p.runsThroughReset = false := by
  simp only [List.mem_cons, List.not_mem_nil, or_false] at h
  rcases h with rfl | ⟨d, rfl⟩ | rfl | rfl | rfl | rfl | rfl <;> exact ⟨rfl, rfl⟩

/-- The loads of a SET_MODE, and a restore that waits for their settling, are remembered. -/
theorem Progress.halted_of_loaded {p : Progress}
    (h : p = .loading ∨ p = .restoreShut true ∨ p = .stopped true) :
    p.halted = .stopped true ∧ p.runsThroughReset = false := by
  rcases h with rfl | rfl | rfl <;> exact ⟨rfl, rfl⟩

/-- All other work of SETTING and ALIGNING is stopped. -/
theorem Progress.halted_of_stopped {p : Progress}
    (h : p ∈ [Progress.shutAll .setMode, .renewing .setMode, .due .setMode, .shutAll .align,
      .renewing .align, .due .align, .renewed, .probing, .probeDue, .suspendClear, .suspendSettle,
      .suspendRenew, .suspendSet, .suspendResume, .endClear, .endSettle, .restoreLoad,
      .restoreShut false, .stopped false]) :
    p.halted = .stopped false ∧ p.runsThroughReset = false := by
  simp only [List.mem_cons, List.not_mem_nil, or_false] at h
  rcases h with rfl | rfl | rfl | rfl | rfl | rfl | rfl | rfl | rfl | rfl | rfl | rfl | rfl | rfl |
    rfl | rfl | rfl | rfl | rfl <;> exact ⟨rfl, rfl⟩

/-- The work of a doze entry (R166). -/
theorem State.dozeEntry_iff (s : State) : s.dozeEntry = true ↔
    s.ctrl.progress = .draining .doze ∨ s.ctrl.progress = .shutAll .doze ∨
      s.ctrl.progress = .due .doze := by
  unfold State.dozeEntry
  split <;> simp_all

theorem State.halted_of_dozeEntry {s : State} (h : s.dozeEntry = true) :
    s.ctrl.progress.halted = s.ctrl.progress ∧ s.ctrl.progress.runsThroughReset = false := by
  refine Progress.halted_of_stands ?_
  rcases s.dozeEntry_iff.1 h with e | e | e <;> simp [e]

theorem State.dozeEntry_of_idle {s : State} (h : s.ctrl.progress = .idle) : s.dozeEntry = false := by
  simp [State.dozeEntry, h]

theorem State.waking_of_idle {s : State} (h : s.ctrl.progress = .idle) : s.waking = false := by
  simp [State.waking, h]

theorem State.dozeEntry_of_waking {s : State} (h : s.waking = true) : s.dozeEntry = false := by
  obtain ⟨point, hp⟩ := State.waking_iff.1 h
  simp [State.dozeEntry, hp]

/-- A wake runs on into the restore. -/
theorem State.toRestore_of_waking {s : State} (h : s.waking = true) :
    s.ctrl.progress.toRestore = s.ctrl.progress := by
  obtain ⟨point, hp⟩ := State.waking_iff.1 h
  simp [Progress.toRestore, hp]

theorem Progress.toRestore_of_none {p : Progress} (h : p = .idle ∨ ∃ d, p = .draining d) :
    p.toRestore = .idle := by
  rcases h with rfl | ⟨d, rfl⟩ <;> rfl

/-! ### The taking effect, by the array state -/

/-- The owners of the slots after a SOFT_RESET: HOST (R46). -/
def noOwner : Vector (Option Byte) 32 := Vector.replicate 32 none

theorem noOwner_get (i : Fin 32) : noOwner.get i = none := Vector.getElem_replicate i.isLt

theorem Lane.giveUp_eq (x : Lane) : x.giveUp =
    if x.searching = true then { x with outcome := .failed, lockTap := none, searching := false }
    else x := rfl

theorem Ctrl.giveUp_lanes (c : Ctrl) : LanesGivenUp c.lanes c.giveUp.lanes := by
  intro i
  obtain ⟨i, hi⟩ := i
  interval_cases i <;> exact Lane.giveUp_eq _

section
variable {s : State}

theorem State.softResetArray_cold (h : s.ctrl.arrayState = .cold) : s.softResetArray = s := by
  simp [State.softResetArray, h]

theorem State.softResetArray_starting (h : s.ctrl.arrayState = .starting)
    (hf : s.sched.inFlight = []) :
    s.softResetArray = { s with
      ctrl := BackToCold s.ctrl s.ctrl.giveUp.lanes
      sched.job := none
      array := ⟨[], s.array.epoch + 1⟩ } := by
  simp [State.softResetArray, h, State.returnToCold, State.loseContents, hf, BackToCold, Ctrl.giveUp,
    ArrayContents.forget]

theorem State.softResetArray_restores {p : Progress}
    (h : s.ctrl.arrayState = .setting ∨ s.ctrl.arrayState = .aligning)
    (hp : s.ctrl.progress.toRestore = p) :
    s.softResetArray = { s with ctrl := { s.ctrl with
      lanes := s.ctrl.giveUp.lanes
      restoreDue := true
      probe := none
      progress := p } } := by
  subst hp
  rcases h with h | h <;> simp [State.softResetArray, h, Ctrl.giveUp]

theorem State.softResetArray_dozeEntry (h : s.ctrl.arrayState = .ready ∨ s.ctrl.arrayState = .dozing)
    (hd : s.dozeEntry = true) : s.softResetArray = s.abandonDoze := by
  rcases h with h | h <;> simp [State.softResetArray, h, hd]

theorem State.softResetArray_retainEntry
    (h : s.ctrl.arrayState = .ready ∨ s.ctrl.arrayState = .dozing) (hd : s.dozeEntry = false)
    (hi : s.ctrl.indication = .retainPending) : s.softResetArray = s.abandonRetain := by
  rcases h with h | h <;> simp [State.softResetArray, h, hd, hi]

theorem State.softResetArray_noEntry (h : s.ctrl.arrayState = .ready ∨ s.ctrl.arrayState = .dozing)
    (hd : s.dozeEntry = false) (hi : s.ctrl.indication ≠ .retainPending) : s.softResetArray = s := by
  rcases h with h | h <;> simp [State.softResetArray, h, hd, hi]

theorem State.softResetArray_retaining (h : s.ctrl.arrayState = .retaining) :
    s.softResetArray = { s with ctrl.exitHeld := false } := by
  simp [State.softResetArray, h]

/-- A retain entry is abandoned; a wake runs on (R177). -/
theorem State.abandonRetain_of_waking (h : s.waking = true) :
    s.abandonRetain = { s with ctrl.indication := .none } := by
  simp [State.abandonRetain, h]

theorem State.abandonRetain_of_notWaking (h : s.waking = false) :
    s.abandonRetain = { s with ctrl.indication := .none, ctrl.progress := .idle } := by
  simp [State.abandonRetain, h]

/-- The host side emptied at a SOFT_RESET command, with the job and the work that it leaves. -/
def State.resetWith (s : State) (j : Option Job) (p : Progress) : State :=
  { HostSideEmptied s noOwner with
    bus.lastCode := 11
    bus.outcome := .accepted
    sched.job := j
    ctrl := { s.ctrl with progress := p, probe := none } }

/-- With nothing in flight the reset takes effect at the command (R191), on the work `p` and the job `j`
that it leaves. -/
theorem exec_softReset_now (hlow : s.resetLow = false) (hflight : s.inFlight = false) {p : Progress}
    {j : Option Job} (hp : s.ctrl.progress.halted = p)
    (hj : (if s.sched.job = some .procedure ∧ s.ctrl.progress.runsThroughReset then
      some Job.procedure else none) = j) :
    exec .softReset s = .next (s.resetWith j p).softResetArray := by
  subst hp hj
  show s.take _ = _
  rw [State.take_high hlow, if_neg (by simp [hflight])]
  rfl

end

/-- The job that a SOFT_RESET leaves when the work does not run on. -/
theorem job_of_stopped (j : Option Job) {p : Progress} (h : p.runsThroughReset = false) :
    (if j = some .procedure ∧ p.runsThroughReset then some Job.procedure else none) = none := by
  simp [h]

theorem job_of_running (j : Option Job) {p : Progress} (h : p.runsThroughReset = true) :
    (if j = some .procedure ∧ p.runsThroughReset then some Job.procedure else none) =
      if j = some .procedure then some .procedure else none := by
  simp [h]

/-- Settles O28: the work at the command, then the taking effect in each array state. -/
theorem softResetEmptiesTheHostSide : Obligations.SoftResetEmptiesTheHostSide := by
  intro s hlow hflight
  have hnone : s.sched.inFlight = [] := by
    simp only [State.inFlight, Bool.or_eq_false_iff, Bool.not_eq_false'] at hflight
    exact List.isEmpty_iff.1 hflight.1
  have waking : s.waking = true → s.ctrl.progress.runsThroughReset = true := fun hw => by
    obtain ⟨point, hp⟩ := State.waking_iff.1 hw
    rw [hp]
    rfl
  have stopped {p : Progress}
      (h : s.ctrl.progress.halted = p ∧ s.ctrl.progress.runsThroughReset = false) :=
    exec_softReset_now hlow hflight h.1 (job_of_stopped s.sched.job h.2)
  have runs (h : s.ctrl.progress.runsThroughReset = true) :=
    exec_softReset_now hlow hflight (Progress.halted_of_runs h) (job_of_running s.sched.job h)
  refine ⟨noOwner, noOwner_get, s.ctrl.giveUp.lanes, s.ctrl.giveUp_lanes, ?_⟩
  intro emptied cleared leaves restoreWith kept
  refine ⟨fun ha hp => ?_, fun ha => ⟨fun hd => ?_, fun hi hp => ?_, fun hi hp => ?_⟩, fun ha => ?_,
    fun ha => ⟨fun hw => ?_, fun hp => ?_, fun hp => ?_, fun hp => ?_⟩, fun ha => ?_,
    fun ha => ⟨fun hp => ?_, fun hp => ?_⟩⟩
  -- COLD
  · refine (stopped (Progress.halted_of_stands (Or.inl hp))).trans (congrArg _ ?_)
    exact State.softResetArray_cold (s := s.resetWith _ _) ha
  -- READY
  · refine (stopped (State.halted_of_dozeEntry hd)).trans (congrArg _ ?_)
    exact State.softResetArray_dozeEntry (s := s.resetWith _ _) (Or.inl ha) hd
  · refine (stopped (Progress.halted_of_stands (Or.inl hp))).trans (congrArg _ ?_)
    exact State.softResetArray_noEntry (s := s.resetWith _ _) (Or.inl ha)
      (State.dozeEntry_of_idle (s := s.resetWith _ _) hp) hi
  · have hstands : s.ctrl.progress = .idle ∨ (∃ d, s.ctrl.progress = .draining d) ∨
        s.ctrl.progress ∈ [Progress.shutAll .doze, .due .doze, .shutAll .retain, .renewing .retain,
          .due .retain] := by
      simp only [List.mem_cons, List.not_mem_nil, or_false] at hp ⊢
      rcases hp with e | e | e | e | e <;> simp [e]
    have hother : s.dozeEntry = false ∧ s.waking = false := by
      simp only [List.mem_cons, List.not_mem_nil, or_false] at hp
      rcases hp with e | e | e | e | e <;> simp [State.dozeEntry, State.waking, e]
    refine (stopped (Progress.halted_of_stands hstands)).trans (congrArg _ ?_)
    exact (State.softResetArray_retainEntry (s := s.resetWith _ _) (Or.inl ha) hother.1 hi).trans
      (State.abandonRetain_of_notWaking (s := s.resetWith _ _) hother.2)
  -- DOZING
  · intro indication
    refine ⟨fun hp => ?_, fun hw => ?_⟩
    · have hd := State.dozeEntry_of_idle (s := s.resetWith none s.ctrl.progress) hp
      have hw := State.waking_of_idle (s := s.resetWith none s.ctrl.progress) hp
      refine (stopped (Progress.halted_of_stands (Or.inl hp))).trans (congrArg _ ?_)
      by_cases hi : s.ctrl.indication = .retainPending
      · rw [show indication = .none from if_pos hi]
        refine (State.softResetArray_retainEntry (s := s.resetWith _ _) (Or.inr ha) hd hi).trans
          ((State.abandonRetain_of_notWaking (s := s.resetWith _ _) hw).trans ?_)
        rw [← hp]
        rfl
      · rw [show indication = s.ctrl.indication from if_neg hi]
        exact State.softResetArray_noEntry (s := s.resetWith _ _) (Or.inr ha) hd hi
    · have hd := State.dozeEntry_of_waking (s := s.resetWith kept s.ctrl.progress) hw
      refine (runs (waking hw)).trans (congrArg _ ?_)
      by_cases hi : s.ctrl.indication = .retainPending
      · rw [show indication = .none from if_pos hi]
        exact (State.softResetArray_retainEntry (s := s.resetWith _ _) (Or.inr ha) hd hi).trans
          (State.abandonRetain_of_waking (s := s.resetWith _ _) hw)
      · rw [show indication = s.ctrl.indication from if_neg hi]
        exact State.softResetArray_noEntry (s := s.resetWith _ _) (Or.inr ha) hd hi
  -- SETTING and ALIGNING
  · refine (runs (waking hw)).trans (congrArg _ ?_)
    exact State.softResetArray_restores (s := s.resetWith _ _) ha (State.toRestore_of_waking hw)
  · refine (stopped (Progress.halted_of_stands (hp.imp_right Or.inl))).trans (congrArg _ ?_)
    exact State.softResetArray_restores (s := s.resetWith _ _) ha (Progress.toRestore_of_none hp)
  · refine (stopped (Progress.halted_of_loaded hp)).trans (congrArg _ ?_)
    exact State.softResetArray_restores (s := s.resetWith _ _) ha rfl
  · refine (stopped (Progress.halted_of_stopped hp)).trans (congrArg _ ?_)
    exact State.softResetArray_restores (s := s.resetWith _ _) ha rfl
  -- STARTING
  · exact (exec_softReset_now hlow hflight rfl rfl).trans
      (congrArg _ (State.softResetArray_starting (s := s.resetWith _ _) ha hnone))
  -- RETAINING
  · refine (stopped (Progress.halted_of_stands (Or.inl hp))).trans (congrArg _ ?_)
    exact State.softResetArray_retaining (s := s.resetWith _ _) ha
  · have hruns : s.ctrl.progress.runsThroughReset = true := by
      refine (Progress.runsThroughReset_iff _).2 (Or.inr ?_)
      simpa using hp
    refine (runs hruns).trans (congrArg _ ?_)
    exact State.softResetArray_retaining (s := s.resetWith _ _) ha

/-! ### The command while something is in flight -/

/-- With something in flight the reset only stands pending (R191). -/
theorem exec_softReset_waits {s : State} (hlow : s.resetLow = false) (hflight : s.inFlight = true) :
    exec .softReset s = .next s.softResetCommand := by
  show s.take _ = _
  rw [State.take_high hlow, if_pos hflight]

theorem State.softResetCommand_closes (s : State) : s.softResetCommand.arbiterOpen = false := by
  simp [State.arbiterOpen, State.softResetCommand]

/-- In READY and DOZING the job stands unless a doze entry is abandoned, and the array stands. -/
theorem State.softResetArray_keeps {s : State}
    (ha : s.ctrl.arrayState = .ready ∨ s.ctrl.arrayState = .dozing) :
    (∃ j c, s.softResetArray = { s with sched.job := j, ctrl := c }) ∧
      (s.dozeEntry = false → s.softResetArray.sched.job = s.sched.job) := by
  by_cases hd : s.dozeEntry = true
  · rw [State.softResetArray_dozeEntry ha hd]
    exact ⟨⟨_, _, rfl⟩, fun h => absurd hd (by simp [h])⟩
  · rw [Bool.not_eq_true] at hd
    by_cases hi : s.ctrl.indication = .retainPending
    · rw [State.softResetArray_retainEntry ha hd hi]
      exact ⟨⟨_, _, rfl⟩, fun _ => rfl⟩
    · rw [State.softResetArray_noEntry ha hd hi]
      exact ⟨⟨s.sched.job, s.ctrl, rfl⟩, fun _ => rfl⟩

/-- Outside STARTING the array side changes the Array Controller and the job alone, and the job only with
a doze entry. -/
theorem State.softResetArray_outsideStarting {s : State} (ha : s.ctrl.arrayState ≠ .starting) :
    (∃ j c, s.softResetArray = { s with sched.job := j, ctrl := c }) ∧
      (s.dozeEntry = false → s.softResetArray.sched.job = s.sched.job) := by
  cases h : s.ctrl.arrayState with
  | starting => exact absurd h ha
  | ready => exact State.softResetArray_keeps (Or.inl h)
  | dozing => exact State.softResetArray_keeps (Or.inr h)
  | cold =>
    rw [State.softResetArray_cold h]
    exact ⟨⟨s.sched.job, s.ctrl, rfl⟩, fun _ => rfl⟩
  | retaining =>
    rw [State.softResetArray_retaining h]
    exact ⟨⟨s.sched.job, _, rfl⟩, fun _ => rfl⟩
  | setting =>
    rw [State.softResetArray_restores (Or.inl h) rfl]
    exact ⟨⟨s.sched.job, _, rfl⟩, fun _ => rfl⟩
  | aligning =>
    rw [State.softResetArray_restores (Or.inr h) rfl]
    exact ⟨⟨s.sched.job, _, rfl⟩, fun _ => rfl⟩

/-- The array side at the taking effect changes the Array Controller, the job and the array alone. -/
theorem State.softResetArray_changes {s : State} (hf : s.sched.inFlight = []) :
    s.softResetArray = { s with
      sched.job := s.softResetArray.sched.job
      ctrl := s.softResetArray.ctrl
      array := s.softResetArray.array } := by
  by_cases ha : s.ctrl.arrayState = .starting
  · rw [State.softResetArray_starting ha hf]
  · obtain ⟨⟨j, c, h⟩, -⟩ := State.softResetArray_outsideStarting ha
    rw [h]

/-- Settles O29: the command's work by its cases, and the taking effect by the array state. -/
theorem softResetWaitsForWhatIsInFlight : Obligations.SoftResetWaitsForWhatIsInFlight := by
  intro s hlow runsOn
  have hruns : s.ctrl.progress.runsThroughReset = true ↔ runsOn := by
    rw [Progress.runsThroughReset_iff, ← State.waking_iff]
  refine ⟨fun hflight => ⟨s.softResetCommand, exec_softReset_waits hlow hflight, rfl,
    s.softResetCommand_closes, fun hon => ?_, fun hoff => ?_, fun hp => ?_, fun hp => ?_, fun hp => ?_⟩,
    fun hflight => ?_, fun hflight hpending => ?_⟩
  · have hr := hruns.2 hon
    exact ⟨Progress.halted_of_runs hr, job_of_running s.sched.job hr⟩
  · exact job_of_stopped s.sched.job (Bool.eq_false_iff.2 fun hr => hoff (hruns.1 hr))
  · refine (Progress.halted_of_stands ?_).1
    simp only [State.dozeEntry_iff, List.mem_cons, List.not_mem_nil, or_false] at hp ⊢
    rcases hp with h | h | (h | h | h) | h | h | h <;> simp [h]
  · exact (Progress.halted_of_loaded hp).1
  · exact (Progress.halted_of_stopped hp).1
  · show s.take _ = _
    rw [State.take_high hlow, if_neg (by simp [State.resetDue, hflight])]
  · have hnone : s.sched.inFlight = [] := by
      simp only [State.inFlight, Bool.or_eq_false_iff, Bool.not_eq_false'] at hflight
      exact List.isEmpty_iff.1 hflight.1
    have hexec : exec .softResetTakesEffect s = .next (HostSideEmptied s noOwner).softResetArray := by
      show s.take _ = _
      rw [State.take_high hlow, if_pos (by simp [State.resetDue, hflight, hpending])]
      rfl
    generalize hu : HostSideEmptied s noOwner = u at hexec
    have hctrl : u.ctrl = s.ctrl := by rw [← hu]; rfl
    have hjob : u.sched = s.sched := by rw [← hu]; rfl
    have harray : u.array = s.array := by rw [← hu]; rfl
    have hd : u.dozeEntry = s.dozeEntry := by rw [← hu]; rfl
    have hw : u.waking = s.waking := by rw [← hu]; rfl
    refine ⟨noOwner, s.ctrl.giveUp.lanes, u.softResetArray, ?_⟩
    intro emptied
    rw [show emptied = u from hu]
    have hf : u.sched.inFlight = [] := by rw [hjob, hnone]
    rw [← hctrl, ← hjob, ← harray, ← hd, ← hw]
    refine ⟨noOwner_get, u.ctrl.giveUp_lanes, hexec,
      State.softResetArray_changes hf, fun ha => ?_, fun ha => ⟨?_, ?_⟩, fun ha => ?_, fun ha => ?_,
      fun ha => ⟨fun hd => ?_, fun hd hi => ?_, fun hd hi => ?_⟩, fun ha => ?_⟩
    · rw [State.softResetArray_cold ha]
    · obtain ⟨⟨_, _, h⟩, -⟩ := State.softResetArray_outsideStarting ha
      rw [h]
    · exact (State.softResetArray_outsideStarting ha).2
    · rw [State.softResetArray_starting ha hf]
      exact ⟨rfl, rfl, rfl⟩
    · rw [State.softResetArray_restores ha rfl]
      refine ⟨rfl, rfl, fun hp => ?_, Progress.toRestore_of_none⟩
      rcases hp with hp | ⟨loaded, hp⟩
      · exact State.toRestore_of_waking hp
      · show u.ctrl.progress.toRestore = _
        rw [hp]
        rfl
    · exact State.softResetArray_dozeEntry ha hd
    · rw [State.softResetArray_retainEntry ha hd hi]
      rfl
    · rw [State.softResetArray_noEntry ha hd hi]
    · rw [State.softResetArray_retaining ha]

end Sys2Proof.Machine

/-! Capture arrivals, the refresh period, wakes and dozes (R103, R118, R164 to R169). -/

namespace Sys2Proof.Machine

/-! ### Wake causes -/

/-- In DOZING without a wake, and in a doze entry of READY, a wake cause rouses the array (R167, R169). -/
theorem State.wakeCause_roused {s u : State}
    (hs : (s.ctrl.arrayState = .dozing ∧ s.waking = false) ∨
      (s.ctrl.arrayState ≠ .dozing ∧ s.dozeEntry = true))
    (hctrl : u.ctrl = s.ctrl) (hsetup : u.setup = s.setup) : u.wakeCause = Roused s u := by
  have hwaking : u.waking = s.waking := by rw [State.waking, State.waking, hctrl]
  have hentry : u.dozeEntry = s.dozeEntry := by rw [State.dozeEntry, State.dozeEntry, hctrl]
  rcases hs with ⟨hd, hw⟩ | ⟨hr, hd⟩
  · have hd' : u.ctrl.arrayState = .dozing := by rw [hctrl, hd]
    rw [State.wakeCause_wakes hd' (hwaking.trans hw), State.beginWake_eq hd', Roused, if_pos hd,
      ← hsetup]
    rfl
  · rw [State.wakeCause_abandons (hctrl ▸ hr) (hentry.trans hd), Roused,
      if_neg hr]
    rfl

/-- A chunk demand is a wake cause (R169). -/
theorem State.demandCause_of_demand {s : State} (h : s.capture.demand = true) :
    s.demandCause = s.wakeCause := by
  simp [State.demandCause, h]

/-- What demands a chunk (R125). -/
theorem Capture.demand_iff (c : Capture) : c.demand = true ↔
    c.state ≠ .idle ∧ 32 ≤ c.fifo.length ∧ c.hasRoom = true := by
  simp [Capture.demand, and_assoc]

theorem Capture.demand_of_short {c : Capture} (h : c.fifo.length < 32) : c.demand = false := by
  simp [Capture.demand, Nat.not_le.2 h]

theorem Capture.demand_of_full {c : Capture} (h : c.hasRoom = false) : c.demand = false := by
  simp [Capture.demand, h]

/-! ### Capture arrivals -/

/-- The second byte of a word offers it to the FIFO (R118). -/
theorem exec_captureByteArrival_word {s : State} {b low : Byte} (hlow : s.resetLow = false)
    (hc : s.capture.state = .running) (hb : s.capture.assembler = some low) :
    exec (.captureByteArrival b) s =
      .next (State.offer { s with capture.assembler := none } (b ++ low)) := by
  show s.take _ = _
  rw [State.take_high hlow, if_pos hc, hb]

/-- A word that the FIFO takes (R119). -/
theorem State.offer_kept {s : State} {w : Word} (h : s.capture.fifo.length < 256) :
    s.offer w = State.demandCause { s with capture.fifo := s.capture.fifo ++ [w] } :=
  if_pos h

/-- Settles O31: the byte by the assembler, and the word by the FIFO's level. -/
theorem captureBytesMakeWords : Obligations.CaptureBytesMakeWords := by
  intro b s hlow
  refine ⟨fun hc => ?_, fun hc hb => ?_, fun low hc hb => ⟨fun hfifo hq => ?_, fun hfifo => ?_⟩⟩
  · show s.take _ = _
    rw [State.take_high hlow, if_neg hc]
  · show s.take _ = _
    rw [State.take_high hlow, if_pos hc, hb]
  · refine (exec_captureByteArrival_word hlow hc hb).trans (congrArg _ ?_)
    refine (State.offer_kept (s := { s with capture.assembler := none }) hfifo).trans ?_
    rcases hq with hw | hshort | hfull
    · exact State.demandCause_of_noWake hw
    · refine State.demandCause_of_noDemand (Capture.demand_of_short ?_)
      rw [List.length_append, List.length_singleton]
      exact Nat.add_lt_add_right hshort 1
    · exact State.demandCause_of_noDemand (Capture.demand_of_full hfull)
  · refine (exec_captureByteArrival_word hlow hc hb).trans (congrArg _ ?_)
    exact if_neg (Nat.not_lt.2 hfifo)

/-! ### The refresh period -/

/-- The words of a read that were captured when the contents are lost (R9). -/
theorem Burst.keepCaptured_eq (x : Burst) (m : ArrayContents) (now : Nat) :
    x.keepCaptured m now = if x.isWrite = true then x else { x with
      data := (List.range (min x.length (2 * (now - (x.done - x.length / 2))))).map fun j =>
        (x.data[j]?).getD (m.word (x.base + j)) } := by
  simp only [Burst.keepCaptured, Burst.captured, ArrayContents.readBy, Nat.add_sub_cancel_left]

/-- A refresh period ends at its point and is counted (R103, R104). -/
theorem exec_refreshPeriodExpiry {s : State} {point : Nat} (hlow : s.resetLow = false)
    (hp : s.refresh.timer = some point) :
    exec .refreshPeriodExpiry s =
      .next (State.urgentCause (s.atAC (max s.now point)).nextRefreshPeriod.countPeriod) := by
  have hpoint : s.refreshPeriodAt = some (max s.now point) := congrArg (Option.map s.pointOf) hp
  show execRefreshPeriodExpiry s = _
  rw [execRefreshPeriodExpiry, State.takeAt_high hlow hpoint]

theorem State.nextRefreshPeriod_some {s : State} {point : Nat} (hp : s.refresh.timer = some point) :
    s.nextRefreshPeriod =
      { s with refresh.timer := some (point + s.setup.working.get 10) } := by
  rw [State.nextRefreshPeriod, hp]
  rfl

/-- A period below +8 raises the balance (R104). -/
theorem State.countPeriod_raises {s : State} (h : s.refresh.balance < 8) :
    s.countPeriod = { s with refresh.balance := s.refresh.balance + 1 } :=
  if_pos h

theorem State.countPeriod_ctrl (s : State) : s.countPeriod.ctrl = s.ctrl := by
  unfold State.countPeriod
  split <;> rfl

theorem State.countPeriod_setup (s : State) : s.countPeriod.setup = s.setup := by
  unfold State.countPeriod
  split <;> rfl

/-- An urgent claim in the states that a wake cause rouses: no alignment is between probes then. -/
theorem State.urgentCause_roused {s u : State} (hc : u.urgentClaim = true)
    (hs : (s.ctrl.arrayState = .dozing ∧ s.waking = false) ∨
      (s.ctrl.arrayState ≠ .dozing ∧ s.dozeEntry = true))
    (hctrl : u.ctrl = s.ctrl) (hsetup : u.setup = s.setup) : u.urgentCause = Roused s u := by
  have hroused := State.wakeCause_roused hs hctrl hsetup
  have hrest : (Roused s u).suspendForRefresh = Roused s u := by
    unfold Roused State.suspendForRefresh
    split <;> exact if_neg (by simp [WakeFrom, AbandonFrom])
  rw [State.urgentCause, if_pos hc, hroused, hrest]

/-- The roused state in DOZING and in a doze entry (R167, R169). -/
theorem roused_dozing {s : State} (h : s.ctrl.arrayState = .dozing) (u : State) :
    Roused s u = WakeFrom u (s.setup.working.get 11) :=
  if_pos h

theorem roused_entry {s : State} (h : s.ctrl.arrayState ≠ .dozing) (u : State) :
    Roused s u = AbandonFrom u :=
  if_neg h

/-- Settles O32: the counted period, and then what an urgent claim causes in it. -/
theorem refreshPeriodRaisesTheBalance : Obligations.RefreshPeriodRaisesTheBalance := by
  intro s point hlow hp hbalance t timer captured u urgent betweenProbes
  have hcount : (s.atAC t).nextRefreshPeriod.countPeriod = u := by
    rw [State.nextRefreshPeriod_some (s := s.atAC t) hp]
    by_cases h : s.refresh.balance < 8
    · exact (State.countPeriod_raises (by exact h)).trans (if_pos h).symm
    · rw [State.countPeriod, if_neg (by exact h)]
      refine Eq.trans ?_ (if_neg h).symm
      simp only [State.loseContents, Burst.keepCaptured_eq]
      rfl
  have hctrl : u.ctrl = s.ctrl := by rw [← hcount, State.countPeriod_ctrl]; rfl
  have hsetup : u.setup = s.setup := by rw [← hcount, State.countPeriod_setup]; rfl
  have hexec : exec .refreshPeriodExpiry s = .next u.urgentCause :=
    (exec_refreshPeriodExpiry hlow hp).trans (by rw [hcount])
  have hclaim : u.urgentClaim = true ↔ urgent := decide_eq_true_iff
  refine ⟨fun hq => ?_, fun hu hd hw => ?_, fun hu ⟨hprogress, hprobe, ha⟩ => ?_, fun hu hd he => ?_⟩
  · refine hexec.trans (congrArg _ ?_)
    rcases hq with hu | ⟨hw, hb⟩
    · exact State.urgentCause_of_noClaim (Bool.eq_false_iff.2 fun h => hu (hclaim.1 h))
    · refine State.urgentCause_of_quiet ?_ ?_
      · rw [NoWake, State.waking, State.dozeEntry, hctrl]
        exact hw
      · rw [hctrl]
        exact fun h => hb h
  · rw [hexec, State.urgentCause_roused (hclaim.2 hu) (Or.inl ⟨hd, hw⟩) hctrl hsetup, roused_dozing hd]
  · rw [hexec, State.urgentCause_suspends (hclaim.2 hu) (by rw [hctrl, hprogress])
      (by rw [hctrl, hprobe]) (by rw [hctrl, ha])]
  · rw [hexec, State.urgentCause_roused (hclaim.2 hu) (Or.inr ⟨hd, he⟩) hctrl hsetup, roused_entry hd]

/-! ### Wakes -/

/-- The padding of a CAPTURE_STOP (R131) drains the FIFO, and can raise a chunk demand (log 25). -/
theorem State.captureStop_padded {s : State} (hf : s.capture.fifo ≠ []) :
    s.captureStop = State.demandCause { s with
      capture.state := .draining
      capture.assembler := none
      capture.fifo := s.capture.fifo ++ List.replicate (padding s.capture.fifo.length) 0
      capture.pad := padding s.capture.fifo.length } := by
  rw [State.captureStop, if_neg (by simpa using hf)]

/-- A padded FIFO that is not empty holds a chunk at least (R131). -/
theorem le_padded {fifo : List Word} (hf : fifo ≠ []) :
    32 ≤ (fifo ++ List.replicate (padding fifo.length) 0).length := by
  have hpos := List.length_pos_of_ne_nil hf
  have hmod := (padding_spec fifo.length).2
  rw [List.length_append, List.length_replicate]
  omega

/-- Settles O33: each cause's own effect, then the rousing of the array. -/
theorem wakeCausesBeginAWake : Obligations.WakeCausesBeginAWake := by
  intro s hlow hs
  have hs' : (s.ctrl.arrayState = .dozing ∧ s.waking = false) ∨
      (s.ctrl.arrayState ≠ .dozing ∧ s.dozeEntry = true) :=
    hs.imp_right fun ⟨hr, he⟩ => ⟨by simp [hr], he⟩
  have demanded {u : State} (hd : u.capture.demand = true) (hctrl : u.ctrl = s.ctrl)
      (hsetup : u.setup = s.setup) : u.demandCause = Roused s u :=
    (State.demandCause_of_demand hd).trans (State.wakeCause_roused hs' hctrl hsetup)
  refine ⟨fun v r hcheck hr => ⟨_, spanLent_setOwner s r, ?_⟩,
    fun b low hc hb hfifo hword hroom => ?_, fun hc hf hroom =>
      ⟨padding s.capture.fifo.length, Nat.lt_succ_of_le (padding_spec _).1, (padding_spec _).2, ?_⟩,
    fun v => ?_, fun point hd hp hbalance hurgent => ?_, fun v hsel hlo hhi hle => ?_⟩
  · rw [exec_post_accepted v hlow hcheck hr, State.accept_eq]
    exact congrArg _ (State.wakeCause_roused hs' rfl rfl)
  · refine (exec_captureByteArrival_word hlow hc hb).trans (congrArg _ ?_)
    refine (State.offer_kept (s := { s with capture.assembler := none }) hfifo).trans ?_
    refine demanded ((Capture.demand_iff _).2 ⟨?_, ?_, hroom⟩) rfl rfl
    · simp [hc]
    · rw [List.length_append, List.length_singleton]
      exact Nat.add_le_add_right hword 1
  · refine (State.command_of_accepted hlow (if_pos hc)).trans (congrArg _ ?_)
    refine (congrArg (fun u => State.answer u 10 .accepted) ((State.captureStop_padded hf).trans
      (demanded ((Capture.demand_iff _).2 ⟨?_, le_padded hf, hroom⟩) rfl rfl))).trans ?_
    · exact fun e => by cases e
    · unfold Roused
      split <;> rfl
  · intro w hpasses hdemand
    have hoffset : s.bus.consumerOffset v = w := s.bus.consumerOffset_eq v
    show s.take _ = _
    rw [State.take_high hlow, hoffset, if_pos hpasses]
    exact congrArg _ (demanded hdemand rfl rfl)
  · have hu : (s.atAC (max s.now point)).nextRefreshPeriod.countPeriod = { s with
        now := max s.now point
        refresh.timer := some (point + s.setup.working.get 10)
        refresh.balance := s.refresh.balance + 1 } := by
      rw [State.nextRefreshPeriod_some (s := s.atAC (max s.now point)) hp]
      exact State.countPeriod_raises (by exact hbalance)
    rw [exec_refreshPeriodExpiry hlow hp, hu]
    exact congrArg _ (State.urgentCause_roused (decide_eq_true hurgent) hs' rfl rfl)
  · rw [exec_refreshSettingWrite_level hlow hsel, if_pos ⟨hlo, hhi⟩]
    exact congrArg _ (State.urgentCause_roused (decide_eq_true hle) hs' rfl rfl)

/-! ### The doze idle timer and the end of a wake -/

/-- The doze decision of R165, where no work of the array stands. -/
theorem State.dozeDecision_iff {s : State} (hp : s.ctrl.progress = .idle) :
    s.dozeDecision = true ↔ s.pool.queued = [] ∧ s.pool.active = none ∧ s.capture.demand = false ∧
      s.refresh.balance ≤ s.refresh.pullinFloor ∧ s.ctrl.indication = .none := by
  have hentry := State.dozeEntry_of_idle hp
  have hdrain : s.drainClaim = false := by simp [State.drainClaim, hp]
  simp [State.dozeDecision, State.aboveFloor, hentry, hdrain, and_assoc]

/-- The doze idle timer expires at its point (R164, R165). -/
theorem exec_dozeIdleExpiry {s : State} {point : Nat} (hlow : s.resetLow = false)
    (ht : s.ctrl.dozeTimer = some point) :
    exec .dozeIdleExpiry s = .next (if s.dozeDecision = true then
        { s.atAC (max s.now point) with ctrl.dozeTimer := none, ctrl.progress := .draining .doze }
      else { s.atAC (max s.now point) with
        ctrl.dozeTimer := (s.atAC (max s.now point)).dozeStart (max s.now point) }) := by
  have hpoint : s.dozeIdleAt = some (max s.now point) := congrArg (Option.map s.pointOf) ht
  show execDozeIdleExpiry s = _
  rw [execDozeIdleExpiry, State.takeAt_high hlow hpoint]

/-- A wake ends at its point with the path free (R169). -/
theorem exec_wakeEnd {s : State} {point : Nat} (hlow : s.resetLow = false)
    (hp : s.ctrl.progress = .waking point) :
    exec .wakeEnd s = .next (State.afterWake
      { s.atAC (max s.now point) with ctrl.progress := .idle, sched.job := none }) := by
  have hpoint : s.wakeEndAt = some (max s.now point) := by
    rw [State.wakeEndAt, hp]
    rfl
  show execWakeEnd s = _
  rw [execWakeEnd, State.takeAt_high hlow hpoint]

/-- A restore that is due waits for the wake alone (R177). -/
theorem State.afterWake_restoreDue {s : State}
    (ha : s.ctrl.arrayState = .setting ∨ s.ctrl.arrayState = .aligning)
    (hr : s.ctrl.restoreDue = true) : s.afterWake = s := by
  rcases ha with ha | ha <;> simp [State.afterWake, ha, hr]

/-- In DOZING the array is READY at the end of its wake (R169). -/
theorem State.afterWake_dozing {s : State} (ha : s.ctrl.arrayState = .dozing) :
    s.afterWake = { s with
      ctrl.arrayState := .ready
      ctrl.dozeTimer := s.dozeStart s.now
      ctrl.progress :=
        if s.ctrl.indication = .retainPending then .draining .retain else .idle } := by
  simp only [State.afterWake, ha]

/-- Settles O34: the doze decision, and the end of the wake by the array state. -/
theorem dozeBeginsWhenIdleAndEndsWithTheWake : Obligations.DozeBeginsWhenIdleAndEndsWithTheWake := by
  refine ⟨fun s point hlow htimer hp => ?_, fun s point hlow hp => ?_⟩
  · intro t quiet
    have hdecision : s.dozeDecision = true ↔ quiet := State.dozeDecision_iff hp
    refine ⟨fun hq => ?_, fun hq => ?_⟩
    · rw [exec_dozeIdleExpiry hlow htimer, if_pos (hdecision.2 hq)]
      rfl
    · rw [exec_dozeIdleExpiry hlow htimer, if_neg (mt hdecision.1 hq)]
      rfl
  · intro t
    refine ⟨fun ha => ?_, fun ha hr => ?_, fun ha hr => ?_, fun ha hr => ?_⟩
    · rw [exec_wakeEnd hlow hp]
      exact congrArg _ (State.afterWake_dozing (by exact ha))
    · rw [exec_wakeEnd hlow hp]
      simp [State.afterWake, State.atAC, ha, hr, t]
    · rw [exec_wakeEnd hlow hp]
      simp [State.afterWake, State.atAC, ha, hr, t]
    · rw [exec_wakeEnd hlow hp]
      exact congrArg _ (State.afterWake_restoreDue (by exact ha) hr)

end Sys2Proof.Machine

/-! The windows at their points, and what goes on by itself then (R58 to R65, R149, R150, R162). -/

namespace Sys2Proof.Machine

/-! ### Windows -/

/-- A window has passed by an AC (R58). -/
theorem expired_iff {w : Option Nat} {n : Nat} : expired w n = true ↔ ∀ p, w = some p → p ≤ n := by
  cases w <;> simp [expired]

theorem expired_eq_false_iff {w : Option Nat} {n : Nat} :
    expired w n = false ↔ ∃ p, w = some p ∧ n < p := by
  cases w <;> simp [expired]

/-- Every bank is CLOSED once one is and the others were. -/
theorem State.allClosed_setBank {s : State} {b : Fin 8} {e : Bank} (he : e.state = .closed) :
    (s.setBank b e).allClosed = true ↔ ∀ c : Fin 8, c ≠ b → (s.bank c).state = .closed := by
  simp only [State.allClosed_iff, State.setBank_bank]
  refine forall_congr' fun c => ?_
  by_cases hc : c = b <;> simp [hc, he]

/-! ### A procedure goes on -/

section
variable {s : State} {d : Drain}

/-- A shut-all that is over serves an urgent claim first (R149). -/
theorem State.proceed_shutAll_urgent (h : s.ctrl.progress = .shutAll d) (hc : s.allClosed = true)
    (hu : s.urgentClaim = true) (hd : d ≠ .doze) :
    s.proceed = { s with ctrl.progress := .renewing d } := by
  rw [State.proceed_shutAll s d h hc, if_pos ⟨hu, hd⟩]

/-- A SET_MODE with nothing to load ends when the three windows are over (R150). -/
theorem State.endSetMode_ends (h : s.ctrl.progress = .due .setMode) (hl : s.ctrl.loadWords = [])
    (hc : s.allClosed = true)
    (hw : s.renewOver = true ∧ s.settled = true ∧ s.modeHoldOver = true) :
    s.endSetModeIfNothingToLoad = s.enterReady.raiseEvent .ready := by
  simp [State.endSetModeIfNothingToLoad, h, hl, hc, hw]

theorem State.endSetMode_waits
    (h : ¬ (s.ctrl.progress = .due .setMode ∧ s.ctrl.loadWords = [] ∧
      s.renewOver = true ∧ s.settled = true ∧ s.modeHoldOver = true)) :
    s.endSetModeIfNothingToLoad = s := by
  refine if_neg fun hall => h ?_
  simp only [Bool.and_eq_true, decide_eq_true_eq, List.isEmpty_iff] at hall
  obtain ⟨⟨⟨⟨⟨hp, hl⟩, -⟩, hr⟩, hset⟩, hm⟩ := hall
  exact ⟨hp, hl, hr, hset, hm⟩

/-- With no urgent claim, or in a doze entry, a shut-all that is over comes to the work itself. -/
theorem State.proceed_shutAll_due (h : s.ctrl.progress = .shutAll d) (hc : s.allClosed = true)
    (hq : s.urgentClaim = false ∨ d = .doze) :
    s.proceed = State.endSetModeIfNothingToLoad { s with ctrl.progress := .due d } := by
  rw [State.proceed_shutAll s d h hc, if_neg]
  rintro ⟨hu, hd⟩
  rcases hq with hq | hq
  · exact absurd hu (by simp [hq])
  · exact hd hq

/-- A shut-all that is over comes to the work of its procedure (R149, R154, R166, R172). -/
theorem State.proceed_shutAll_work (h : s.ctrl.progress = .shutAll d) (hc : s.allClosed = true)
    (hq : s.urgentClaim = false ∨ d = .doze) (hl : d ≠ .setMode ∨ s.ctrl.loadWords ≠ []) :
    s.proceed = { s with ctrl.progress := .due d } := by
  rw [State.proceed_shutAll_due h hc hq]
  refine State.endSetMode_waits ?_
  rintro ⟨hp, hnil, -⟩
  injection hp with hd
  exact hl.elim (absurd hd) (absurd hnil)

/-- A shut-all of a SET_MODE with nothing to load ends it, if the three windows are over (R150). -/
theorem State.proceed_shutAll_ends (h : s.ctrl.progress = .shutAll .setMode)
    (hc : s.allClosed = true) (hu : s.urgentClaim = false) (hl : s.ctrl.loadWords = [])
    (hw : s.renewOver = true ∧ s.settled = true ∧ s.modeHoldOver = true) :
    s.proceed = ReadyFrom { s with events.flags := s.events.flags ||| 0x40#8 } := by
  rw [State.proceed_shutAll_due h hc (Or.inl hu)]
  exact State.endSetMode_ends rfl hl hc hw

theorem State.proceed_shutAll_waits (h : s.ctrl.progress = .shutAll .setMode)
    (hc : s.allClosed = true) (hu : s.urgentClaim = false)
    (hw : ¬ (s.renewOver = true ∧ s.settled = true ∧ s.modeHoldOver = true)) :
    s.proceed = { s with ctrl.progress := .due .setMode } := by
  rw [State.proceed_shutAll_due h hc (Or.inl hu)]
  exact State.endSetMode_waits fun hall => hw hall.2.2

/-- A SET_MODE with nothing to load, by its three windows (R150). -/
theorem State.proceed_nothingToLoad_ends (h : s.ctrl.progress = .due .setMode)
    (hl : s.ctrl.loadWords = []) (hc : s.allClosed = true)
    (hw : s.renewOver = true ∧ s.settled = true ∧ s.modeHoldOver = true) :
    s.proceed = s.enterReady.raiseEvent .ready := by
  rw [State.proceed_nothingToLoad s h hl hc, if_pos hw]

theorem State.proceed_nothingToLoad_waits (h : s.ctrl.progress = .due .setMode)
    (hl : s.ctrl.loadWords = []) (hc : s.allClosed = true)
    (hw : ¬ (s.renewOver = true ∧ s.settled = true ∧ s.modeHoldOver = true)) : s.proceed = s := by
  rw [State.proceed_nothingToLoad s h hl hc, if_neg hw]

/-- A restore ends with the last bank CLOSED, unless it waits for mode-settle (R162). -/
theorem State.proceed_restore_ends {w : Bool} (h : s.ctrl.progress = .restoreShut w)
    (hc : s.allClosed = true) (hw : s.settled = true ∨ w = false) : s.proceed = s.enterReady := by
  rw [State.proceed_restoreShut s w h hc, if_pos hw]

theorem State.proceed_restore_waits (h : s.ctrl.progress = .restoreShut true)
    (hc : s.allClosed = true) (hw : s.settled = false) : s.proceed = s := by
  rw [State.proceed_restoreShut s true h hc, if_neg (by simp [hw])]

/-! ### The commands of the windows -/

variable {b : Fin 8} {point : Nat}

theorem exec_openDelayExpiry (hlow : s.resetLow = false) (h : (s.bank b).openDelayEnd = some point) :
    exec (.openDelayExpiry b) s = .next (State.endHeldBurst ((s.atAC (max s.now point)).setBank b
      { s.bank b with state := .opened, openDelayEnd := none })) := by
  have hpoint : s.openDelayAt b = some (max s.now point) := congrArg (Option.map s.pointOf) h
  show execOpenDelayExpiry b s = _
  rw [execOpenDelayExpiry, State.takeAt_high hlow hpoint]

theorem exec_closeTimeExpiry (hlow : s.resetLow = false) (h : (s.bank b).closeTimeEnd = some point) :
    exec (.closeTimeExpiry b) s = .next (State.proceed ((s.atAC (max s.now point)).setBank b
      { s.bank b with state := .closed, closeTimeEnd := none })) := by
  have hpoint : s.closeTimeAt b = some (max s.now point) := congrArg (Option.map s.pointOf) h
  show execCloseTimeExpiry b s = _
  rw [execCloseTimeExpiry, State.takeAt_high hlow hpoint]

theorem exec_shutWindowExpiry {w : ShutWindow} (hlow : s.resetLow = false)
    (h : (s.bank b).shutWindowPoint w = some point) :
    exec (.shutWindowExpiry b w) s =
      .next ((s.atAC (max s.now point)).setBank b ((s.bank b).clearShutWindow w)) := by
  have hpoint : s.shutWindowAt b w = some (max s.now point) := congrArg (Option.map s.pointOf) h
  show execShutWindowExpiry b w s = _
  rw [execShutWindowExpiry, State.takeAt_high hlow hpoint]

theorem exec_openSpacingExpiry (hlow : s.resetLow = false) (h : s.table.openSpacing = some point) :
    exec .openSpacingExpiry s =
      .next { s with now := max s.now point, table.openSpacing := none } := by
  have hpoint : s.openSpacingAt = some (max s.now point) := congrArg (Option.map s.pointOf) h
  show execOpenSpacingExpiry s = _
  rw [execOpenSpacingExpiry, State.takeAt_high hlow hpoint]
  rfl

theorem exec_readHoldExpiry (hlow : s.resetLow = false) (h : s.ctrl.readHold = some point) :
    exec .readHoldExpiry s = .next { s with now := max s.now point, ctrl.readHold := none } := by
  have hpoint : s.readHoldAt = some (max s.now point) := congrArg (Option.map s.pointOf) h
  show execReadHoldExpiry s = _
  rw [execReadHoldExpiry, State.takeAt_high hlow hpoint]
  rfl

theorem exec_modeHoldExpiry (hlow : s.resetLow = false) (h : s.table.modeHold = some point) :
    exec .modeHoldExpiry s =
      .next (State.proceed { s with now := max s.now point, table.modeHold := none }) := by
  have hpoint : s.modeHoldAt = some (max s.now point) := congrArg (Option.map s.pointOf) h
  show execModeHoldExpiry s = _
  rw [execModeHoldExpiry, State.takeAt_high hlow hpoint]
  rfl

theorem exec_renewCompletion (hlow : s.resetLow = false) (h : s.table.renewWindow = some point) :
    exec .renewCompletion s =
      .next (State.proceed { s with now := max s.now point, table.renewWindow := none }) := by
  have hpoint : s.renewCompletionAt = some (max s.now point) := congrArg (Option.map s.pointOf) h
  show execRenewCompletion s = _
  rw [execRenewCompletion, State.takeAt_high hlow hpoint]
  rfl

theorem exec_modeSettleExpiry (hlow : s.resetLow = false) (h : s.table.modeSettle = some point) :
    exec .modeSettleExpiry s =
      .next (State.afterSettle { s with now := max s.now point, table.modeSettle := none }) := by
  have hpoint : s.modeSettleAt = some (max s.now point) := congrArg (Option.map s.pointOf) h
  show execModeSettleExpiry s = _
  rw [execModeSettleExpiry, State.takeAt_high hlow hpoint]
  rfl

/-- Work that does not wait for mode-settle in particular goes on as at any window's end. -/
theorem State.afterSettle_proceeds (h : s.ctrl.progress ∉
    [Progress.loading, .suspendSettle, .suspendResume, .endSettle, .exitSettle]) :
    s.afterSettle = s.proceed := by
  simp only [List.mem_cons, List.not_mem_nil, or_false, not_or] at h
  unfold State.afterSettle
  split <;> simp_all

/-! ### A burst that waited for its row -/

/-- A record burst that waited for its row ends when its bank is ready and the read hold is in force
(R89). -/
theorem State.endHeldBurst_of_burst {a : Active} {x : Block} (hj : s.sched.job = some .recordBurst)
    (ha : s.pool.active = some a) (hx : a.req.blockAt s.setup.workGeometry a.position = some x) :
    s.endHeldBurst =
      if a.req.kind.reads = true ∧ s.holdInForce = true ∧ (s.bank x.bank).readyFor x.row = true then
        { s with sched.job := none }
      else s := by
  have hblock : a.block s.setup.workGeometry = some x := hx
  simp [State.endHeldBurst, hj, ha, hblock, and_assoc]

theorem State.endHeldBurst_of_other (hj : s.sched.job ≠ some .recordBurst) : s.endHeldBurst = s :=
  s.endHeldBurst_spec.resolve_right fun h => hj h.1

theorem Kind.reads_iff_read {k : Kind} : k.reads = true ↔ k = .read ∨ k = .compare := by
  cases k <;> simp [Kind.reads]

theorem State.holdInForce_iff : s.holdInForce = true ↔ ∃ p, s.ctrl.readHold = some p ∧ s.now < p := by
  rw [State.holdInForce, Bool.not_eq_true', expired_eq_false_iff]

theorem Bank.readyFor_iff {e : Bank} {row : Nat} :
    e.readyFor row = true ↔ e.state = .opened ∧ e.openRow = some row ∧ e.mark = false := by
  simp [Bank.readyFor]

end

/-- A procedure that waits for nothing it could go on with stays, and so does one that waits for a bank
that is not CLOSED. -/
theorem State.proceed_stays {u : State}
    (h : ¬ ((∃ d, u.ctrl.progress = .shutAll d) ∨
      (u.ctrl.progress = .due .setMode ∧ u.ctrl.loadWords = []) ∨
      ∃ w, u.ctrl.progress = .restoreShut w) ∨ u.allClosed = false) : u.proceed = u := by
  rcases h with h | h
  · rw [not_or, not_or] at h
    obtain ⟨hshut, hload, hrestore⟩ := h
    exact State.proceed_other u (fun d hd => hshut ⟨d, hd⟩) (fun hp hl => hload ⟨hp, hl⟩)
      fun w hw => hrestore ⟨w, hw⟩
  · exact State.proceed_open u h

/-- Settles O35: the windows of a bank, then those of the whole array, by the work that waits. -/
theorem windowsExpireAtTheirPoints : Obligations.WindowsExpireAtTheirPoints := by
  refine ⟨fun s b point hlow => ?_, fun s point hlow => ?_⟩
  · intro e n after opened closed lastOpen ended allEnded
    have hclosed : closed.allClosed = true ↔ lastOpen :=
      State.allClosed_setBank (s := s.atAC n) (b := b) rfl
    have hover : allEnded ↔ closed.renewOver = true ∧ closed.settled = true ∧
        closed.modeHoldOver = true :=
      (and_congr expired_iff (and_congr expired_iff expired_iff)).symm
    have hnotOpen : ¬ lastOpen → closed.allClosed = false := fun h =>
      Bool.eq_false_iff.2 fun hc => h (hclosed.1 hc)
    refine ⟨fun hp hj => ?_, fun hp hj a x ha hx => ?_, fun hp => ?_, fun hp => ?_, fun hp => ?_,
      fun hp => ?_⟩
    · exact (exec_openDelayExpiry hlow hp).trans (congrArg _ (State.endHeldBurst_of_other (by exact hj)))
    · intro reads held ready
      have hburst : opened.endHeldBurst = if a.req.kind.reads = true ∧ opened.holdInForce = true ∧
          (opened.bank x.bank).readyFor x.row = true then { opened with sched.job := none }
          else opened := State.endHeldBurst_of_burst hj ha hx
      have hcond : reads ∧ held ∧ ready ↔ a.req.kind.reads = true ∧ opened.holdInForce = true ∧
          (opened.bank x.bank).readyFor x.row = true :=
        (and_congr Kind.reads_iff_read
          (and_congr (State.holdInForce_iff (s := opened)) Bank.readyFor_iff)).symm
      have hexec : exec (.openDelayExpiry b) s = .next opened.endHeldBurst :=
        exec_openDelayExpiry hlow hp
      rw [hexec, hburst]
      exact ⟨fun h => congrArg _ (if_pos (hcond.1 h)), fun h => congrArg _ (if_neg (mt hcond.2 h))⟩
    · have hexec : exec (.closeTimeExpiry b) s = .next closed.proceed := exec_closeTimeExpiry hlow hp
      rw [hexec]
      refine ⟨fun h1 h2 h3 => ?_, fun _ hopen => ?_, fun d hd hlast => ?_, fun w hw hlast hset => ?_,
        fun p hw hlast hset hlt => ?_⟩
      · exact congrArg _ (State.proceed_other closed h1 (fun h => absurd h h2) h3)
      · exact congrArg _ (State.proceed_open closed (hnotOpen hopen))
      · have hshut : closed.ctrl.progress = .shutAll d := hd
        have hbanks := hclosed.2 hlast
        have quiet : s.refresh.balance < s.refresh.urgentLevel → closed.urgentClaim = false :=
          fun hlt => decide_eq_false (Int.not_le.2 hlt)
        refine ⟨fun hu hne => ?_, fun hq hl => ?_, fun hq hset hl => ⟨fun hall => ?_, fun hall => ?_⟩⟩
        · exact congrArg _ (State.proceed_shutAll_urgent hshut hbanks (decide_eq_true hu) hne)
        · exact congrArg _ (State.proceed_shutAll_work hshut hbanks (hq.imp_left quiet) hl)
        · subst hset
          exact congrArg _ (State.proceed_shutAll_ends hshut hbanks (quiet hq) hl (hover.1 hall))
        · subst hset
          exact congrArg _ (State.proceed_shutAll_waits hshut hbanks (quiet hq) (mt hover.2 hall))
      · exact congrArg _ (State.proceed_restore_ends hw (hclosed.2 hlast)
          (hset.symm.imp_left expired_iff.2))
      · exact congrArg _ (State.proceed_restore_waits hw (hclosed.2 hlast)
          (expired_eq_false_iff.2 ⟨p, hset, hlt⟩))
    · exact exec_shutWindowExpiry hlow hp
    · exact exec_shutWindowExpiry hlow
        (by rw [Bank.shutWindowPoint, show (s.bank b).writeRecovery = _ from hp])
    · exact exec_shutWindowExpiry hlow hp
  · intro t waits nothingToLoad runs ended holdOver settleOver renewOver setModeEnds
    have hhold (h : s.table.modeHold = some point) :
        exec .modeHoldExpiry s = .next holdOver.proceed := exec_modeHoldExpiry hlow h
    have hrenew (h : s.table.renewWindow = some point) :
        exec .renewCompletion s = .next renewOver.proceed := exec_renewCompletion hlow h
    have hsettle (h : s.table.modeSettle = some point) (hp : s.ctrl.progress ∉
        [.loading, .suspendSettle, .suspendResume, .endSettle, .exitSettle]) :
        exec .modeSettleExpiry s = .next settleOver.proceed :=
      (exec_modeSettleExpiry hlow h).trans (congrArg _ (State.afterSettle_proceeds hp))
    have passed {w : Option Nat} (h : ended w) : expired w t = true := expired_iff.2 h
    have notOver {w : Option Nat} (h : runs w) : ¬ expired w t = true := by
      rw [expired_eq_false_iff.2 h]
      exact Bool.false_ne_true
    refine ⟨exec_openSpacingExpiry hlow, exec_readHoldExpiry hlow,
      fun hstays => ⟨fun h => ?_, fun h hp => ?_, fun h => ?_⟩,
      fun ⟨hp, hl, hc⟩ => ⟨fun h hw => ?_, fun h hw => ?_, fun h hw => ?_⟩,
      fun ⟨hp, hl, hc⟩ => ⟨fun h h1 h2 => ?_, fun h h1 h2 => ?_, fun h h1 h2 => ?_⟩,
      fun hp hc => ⟨fun h => ?_, fun h => ⟨fun hw => ?_, fun hw => ?_⟩,
        fun h => ⟨fun hw => ?_, fun hw => ?_⟩⟩⟩
    · exact (hhold h).trans (congrArg _ (State.proceed_stays hstays))
    · exact (hsettle h hp).trans (congrArg _ (State.proceed_stays hstays))
    · exact (hrenew h).trans (congrArg _ (State.proceed_stays hstays))
    · exact (hhold h).trans (congrArg _ (State.proceed_nothingToLoad_waits hp hl hc
        fun ⟨hr, hset, _⟩ => hw.elim (notOver · hr) (notOver · hset)))
    · exact (hsettle h (by simp [hp])).trans (congrArg _ (State.proceed_nothingToLoad_waits hp hl hc
        fun ⟨hr, _, hm⟩ => hw.elim (notOver · hr) (notOver · hm)))
    · exact (hrenew h).trans (congrArg _ (State.proceed_nothingToLoad_waits hp hl hc
        fun ⟨_, hset, hm⟩ => hw.elim (notOver · hm) (notOver · hset)))
    · exact (hhold h).trans (congrArg _ (State.proceed_nothingToLoad_ends hp hl hc
        ⟨passed h1, passed h2, rfl⟩))
    · exact (hsettle h (by simp [hp])).trans (congrArg _ (State.proceed_nothingToLoad_ends hp hl hc
        ⟨passed h1, rfl, passed h2⟩))
    · exact (hrenew h).trans (congrArg _ (State.proceed_nothingToLoad_ends hp hl hc
        ⟨rfl, passed h2, passed h1⟩))
    · exact (hsettle h (by simp [hp])).trans (congrArg _ (State.proceed_restore_ends hp hc (Or.inl rfl)))
    · exact (hhold h).trans (congrArg _ (State.proceed_restore_waits hp hc
        (expired_eq_false_iff.2 hw)))
    · exact (hhold h).trans (congrArg _ (State.proceed_restore_ends hp hc (Or.inl (passed hw))))
    · exact (hrenew h).trans (congrArg _ (State.proceed_restore_waits hp hc
        (expired_eq_false_iff.2 hw)))
    · exact (hrenew h).trans (congrArg _ (State.proceed_restore_ends hp hc (Or.inl (passed hw))))

end Sys2Proof.Machine

/-! Start-up phases, the end of mode-settle, and the retain windows (R141 to R143, R150, R157, R174,
R175). -/

namespace Sys2Proof.Machine

/-! ### Mode loads -/

theorem not_lockRestartMask : ~~~lockRestartMask = 0xFEFF#16 := rfl

theorem not_alignModeMask : ~~~alignModeMask = 0xFF7F#16 := rfl

/-- The array copy keeps lock restart clear (R151). -/
theorem restart_and_clear (v : Word) : (v ||| 0x0100#16) &&& 0xFEFF#16 = v &&& 0xFEFF#16 := by
  rw [BitVec.and_comm, BitVec.and_or_distrib_left, BitVec.and_comm _ v]
  exact BitVec.or_zero

theorem restart_bit (v : Word) : (v ||| 0x0100#16).getLsbD 8 = true := by
  rw [BitVec.getLsbD_or]
  exact Bool.or_true _

section
variable {s : State}

/-- A MODE_LOAD outside READY, where its issue starts no doze idle timer (R12, R146, R151). -/
theorem State.loadMode_eq (ha : s.ctrl.arrayState ≠ .ready) (word : Fin 4) (v : Word) (t : Nat) :
    s.loadMode word v t = { s with
      now := t
      port := some ⟨.modeLoad word v, t⟩
      ctrl.copies := s.ctrl.copies.set word.val
        (some (if word = 0 then v &&& 0xFEFF#16 else v)) word.isLt
      ctrl.shadows :=
        if word = 0 ∧ v.getLsbD 8 = true then
          s.ctrl.shadows.set 0 (s.ctrl.shadows.get 0 &&& 0xFEFF#16)
        else s.ctrl.shadows
      ctrl.readHold :=
        if (word = 0 ∧ v.getLsbD 8 = true) ∧ s.ctrl.arrayState ≠ .starting then
          some (t + s.setup.working.get 9)
        else s.ctrl.readHold
      table.modeHold := some (t + s.setup.working.get 7)
      table.modeSettle := some (t + s.setup.working.get 8) } := by
  simp only [State.loadMode, State.issue, if_neg ha, not_lockRestartMask, lockRestart, Bool.and_eq_true,
    decide_eq_true_eq]
  rfl

/-- The load of a word other than M0 starts no read hold (R151). -/
theorem State.loadMode_other (ha : s.ctrl.arrayState ≠ .ready) {word : Fin 4} (hw : word ≠ 0) (v : Word)
    (t : Nat) :
    s.loadMode word v t = { s with
      now := t
      port := some ⟨.modeLoad word v, t⟩
      ctrl.copies := s.ctrl.copies.set word.val (some v) word.isLt
      table.modeHold := some (t + s.setup.working.get 7)
      table.modeSettle := some (t + s.setup.working.get 8) } := by
  rw [State.loadMode_eq ha, if_neg hw, if_neg (fun h => hw h.1), if_neg (fun h => hw h.1.1)]

/-- A lock restart outside STARTING begins the read hold (R151, R175). -/
theorem State.loadMode_restart (ha : s.ctrl.arrayState ≠ .ready) (hs : s.ctrl.arrayState ≠ .starting)
    (m0 : Word) (t : Nat) :
    s.loadMode 0 (m0 ||| 0x0100#16) t = { s with
      now := t
      port := some ⟨.modeLoad 0 (m0 ||| 0x0100#16), t⟩
      ctrl.copies := s.ctrl.copies.set 0 (some (m0 &&& 0xFEFF#16))
      ctrl.shadows := s.ctrl.shadows.set 0 (s.ctrl.shadows.get 0 &&& 0xFEFF#16)
      ctrl.readHold := some (t + s.setup.working.get 9)
      table.modeHold := some (t + s.setup.working.get 7)
      table.modeSettle := some (t + s.setup.working.get 8) } := by
  rw [State.loadMode_eq ha, if_pos rfl, restart_and_clear, if_pos ⟨rfl, restart_bit m0⟩,
    if_pos ⟨⟨rfl, restart_bit m0⟩, hs⟩]
  rfl

/-! ### Start-up -/

variable {point : Nat}

theorem State.resetHoldAt_eq (h : s.ctrl.progress = .resetHold point) :
    s.resetHoldAt = some (max s.now point) := by
  rw [State.resetHoldAt, h]
  rfl

theorem State.wakePhaseAt_eq (h : s.ctrl.progress = .wakePhase point) :
    s.wakePhaseAt = some (max s.now point) := by
  rw [State.wakePhaseAt, h]
  rfl

theorem State.settlePhaseAt_eq (h : s.ctrl.progress = .settlePhase point) :
    s.settlePhaseAt = some (max s.now point) := by
  rw [State.settlePhaseAt, h]
  rfl

theorem State.lockPhaseAt_eq (h : s.ctrl.progress = .lockPhase point) :
    s.lockPhaseAt = some (max s.now point) := by
  rw [State.lockPhaseAt, h]
  rfl

/-- The end of SETTLE loads the working set and M1 (R142). -/
theorem exec_settlePhaseExpiry (hlow : s.resetLow = false)
    (hp : s.ctrl.progress = .settlePhase point) :
    exec .settlePhaseExpiry s = .next (State.loadMode { s.atAC (max s.now point) with
      setup := s.setup.loadWorking
      ctrl.progress := .loading
      ctrl.loadWords := [2, 3, 0] } 1 (s.ctrl.imageValue 1) (max s.now point)) := by
  show execSettlePhaseExpiry s = _
  rw [execSettlePhaseExpiry, State.takeAt_high hlow (State.settlePhaseAt_eq hp)]

theorem exec_lockPhaseExpiry (hlow : s.resetLow = false) (hp : s.ctrl.progress = .lockPhase point) :
    exec .lockPhaseExpiry s = .next (
      if s.ctrl.autoAlign = true then { s.atAC (max s.now point) with
        ctrl := { s.ctrl.beginAlignment with progress := .due .align } }
      else (s.atAC (max s.now point)).endStartUp) := by
  show execLockPhaseExpiry s = _
  rw [execLockPhaseExpiry, State.takeAt_high hlow (State.lockPhaseAt_eq hp)]

end

/-- Settles O36: one clause for each phase, the last by AUTO_ALIGN. -/
theorem startUpPhasesFollowOneAnother : Obligations.StartUpPhasesFollowOneAnother := by
  intro s point hlow n
  refine ⟨fun hp => ?_, fun hp => ?_, fun hp ha => ⟨s.setup.loadWorking.working,
    s.setup.loadWorking_get, ?_⟩, fun hp hauto => ?_, fun hp hauto => ?_⟩
  · show execResetHoldExpiry s = _
    rw [execResetHoldExpiry, State.takeAt_high hlow (State.resetHoldAt_eq hp)]
    rfl
  · show execWakePhaseExpiry s = _
    rw [execWakePhaseExpiry, State.takeAt_high hlow (State.wakePhaseAt_eq hp)]
    rfl
  · have hvalue : s.ctrl.imageValue 1 = s.ctrl.loadImage.get 1 &&& 0xFF7F#16 := by
      simp [Ctrl.imageValue, ha, not_alignModeMask]
    rw [exec_settlePhaseExpiry hlow hp, hvalue]
    exact congrArg _ (State.loadMode_other (fun e => by cases ha.symm.trans e) (by decide) _ _)
  · rw [exec_lockPhaseExpiry hlow hp, if_neg (by simp [hauto])]
    rfl
  · rw [exec_lockPhaseExpiry hlow hp, if_pos hauto]
    rfl

/-! ### The end of mode-settle -/

section
variable {s : State}

/-- The last load of STARTING begins the LOCK phase (R142). -/
theorem State.afterSettle_starting (hp : s.ctrl.progress = .loading) (hl : s.ctrl.loadWords = [])
    (ha : s.ctrl.arrayState = .starting) :
    s.afterSettle = { s with ctrl.progress := .lockPhase (s.now + s.setup.working.get 9) } := by
  simp only [State.afterSettle, hp, hl, List.isEmpty_nil, if_true, State.loadsSettled, ha]
  rfl

/-- The last load of a SET_MODE ends it (R150). -/
theorem State.afterSettle_setting (hp : s.ctrl.progress = .loading) (hl : s.ctrl.loadWords = [])
    (ha : s.ctrl.arrayState ≠ .starting) : s.afterSettle = s.enterReady.raiseEvent .ready := by
  simp only [State.afterSettle, hp, hl, List.isEmpty_nil, if_true, State.loadsSettled, if_neg ha]

/-- With words left to load, and before a probe, nothing waits for the window. -/
theorem State.afterSettle_stays (hp : s.ctrl.progress = .loading ∧ s.ctrl.loadWords ≠ [] ∨
    s.ctrl.progress = .probing) : s.afterSettle = s := by
  rcases hp with ⟨hp, hl⟩ | hp
  · simp [State.afterSettle, hp, hl]
  · rw [State.afterSettle_proceeds (by simp [hp])]
    exact State.proceed_stays (Or.inl (by simp [hp]))

/-- The load that clears align mode has settled: an ALIGN ends (R157), or the start-up (R143). -/
theorem State.afterSettle_aligned (hp : s.ctrl.progress = .endSettle)
    (ha : s.ctrl.arrayState ≠ .starting) :
    s.afterSettle = (s.raiseEvent .alignDone).enterReady := by
  simp only [State.afterSettle, hp, State.endAlignment, if_neg ha]

theorem State.afterSettle_startUpAligned (hp : s.ctrl.progress = .endSettle)
    (ha : s.ctrl.arrayState = .starting) :
    s.afterSettle = ReadyFrom { s with
      refresh.balance := 0
      refresh.timer := some (s.now + s.setup.working.get 10)
      events.flags := s.events.flags ||| 0x60#8 } := by
  have hflags : s.events.flags ||| 0x20#8 ||| 0x40#8 = s.events.flags ||| 0x60#8 :=
    BitVec.or_assoc _ _ _
  simp only [State.afterSettle, hp, State.endAlignment, if_pos ha, ← hflags]
  rfl

theorem State.afterSettle_exit (hp : s.ctrl.progress = .exitSettle) :
    s.afterSettle = s.endRetainExit := by
  simp only [State.afterSettle, hp]

/-- A suspension comes to its RENEWs, or to its end (R158). -/
theorem State.afterSettle_suspended (hp : s.ctrl.progress = .suspendSettle) :
    s.afterSettle = { s with
      ctrl.progress := if 0 < s.refresh.balance then .suspendRenew else .suspendSet } := by
  simp only [State.afterSettle, hp]

/-- A suspension is counted when align mode is set again, and a standing claim begins another (R158). -/
theorem State.afterSettle_resumed (hp : s.ctrl.progress = .suspendResume)
    (ha : s.ctrl.arrayState = .aligning) (hprobe : s.ctrl.probe = none) :
    s.afterSettle = { s with
      ctrl.interruptions := min 255 (s.ctrl.interruptions + 1)
      ctrl.progress :=
        if s.refresh.urgentLevel ≤ s.refresh.balance then .suspendClear else .probing } := by
  by_cases hu : s.refresh.urgentLevel ≤ s.refresh.balance
  · simp [State.afterSettle, hp, State.suspendForRefresh, State.urgentClaim, hu, ha, hprobe]
  · simp [State.afterSettle, hp, State.suspendForRefresh, State.urgentClaim, hu]

/-! ### Retain windows -/

variable {point : Nat}

theorem exec_retainMinExpiry (hlow : s.resetLow = false) (hp : s.ctrl.retainMin = some point) :
    exec .retainMinExpiry s = .next (
      if s.ctrl.exitHeld = true then
        State.beginExit { s.atAC (max s.now point) with ctrl.retainMin := none }
      else { s.atAC (max s.now point) with ctrl.retainMin := none }) := by
  have hpoint : s.retainMinAt = some (max s.now point) := congrArg (Option.map s.pointOf) hp
  show execRetainMinExpiry s = _
  rw [execRetainMinExpiry, State.takeAt_high hlow hpoint]

theorem State.retainExitTimeAt_eq {changed : Bool} (h : s.ctrl.progress = .exitTime point changed) :
    s.retainExitTimeAt = some (max s.now point) := by
  rw [State.retainExitTimeAt, h]
  rfl

/-- The end of RETAIN_EXIT_TIME with the divisor as it was (R175). -/
theorem exec_retainExitTimeExpiry_same (hlow : s.resetLow = false)
    (hp : s.ctrl.progress = .exitTime point false) :
    exec .retainExitTimeExpiry s = .next (s.atAC (max s.now point)).endRetainExit := by
  show execRetainExitTimeExpiry s = _
  rw [execRetainExitTimeExpiry, State.takeAt_high hlow (State.retainExitTimeAt_eq hp), hp]

/-- The end of RETAIN_EXIT_TIME with another divisor: the load of M0 is due (R175). -/
theorem exec_retainExitTimeExpiry_changed (hlow : s.resetLow = false)
    (hp : s.ctrl.progress = .exitTime point true) :
    exec .retainExitTimeExpiry s = .next (s.atAC (max s.now point)).lockRestartStep := by
  show execRetainExitTimeExpiry s = _
  rw [execRetainExitTimeExpiry, State.takeAt_high hlow (State.retainExitTimeAt_eq hp), hp]

/-- The load of a retain exit is due with every bank CLOSED and the mode-hold window over (R175). -/
theorem State.dueLoad_exitLoad {m0 : Word} (hp : s.ctrl.progress = .exitLoad)
    (hj : s.sched.job = some .procedure) (hc : s.allClosed = true) (hh : s.modeHoldOver = true)
    (hm : s.ctrl.copies.get 0 = some m0) :
    s.dueLoad = some (0, m0 ||| 0x0100#16, .exitSettle) := by
  simp [State.dueLoad, hp, hj, hc, hh, hm, lockRestartMask]

/-- No load is due while the mode-hold window runs (R59). -/
theorem State.dueLoad_holdRuns (hh : s.modeHoldOver = false) : s.dueLoad = none := by
  simp [State.dueLoad, hh]

theorem State.lockRestartStep_loads {m0 : Word} (hj : s.sched.job = some .procedure)
    (hc : s.allClosed = true) (hh : s.modeHoldOver = true) (hm : s.ctrl.copies.get 0 = some m0) :
    s.lockRestartStep =
      { State.loadMode { s with ctrl.progress := .exitLoad } 0 (m0 ||| 0x0100#16) s.now with
        ctrl.progress := .exitSettle } := by
  rw [State.lockRestartStep,
    State.dueLoad_exitLoad (s := { s with ctrl.progress := .exitLoad }) rfl hj hc hh hm]

theorem State.lockRestartStep_waits (hh : s.modeHoldOver = false) :
    s.lockRestartStep = { s with ctrl.progress := .exitLoad } := by
  rw [State.lockRestartStep, State.dueLoad_holdRuns (s := { s with ctrl.progress := .exitLoad }) hh]

end

/-- Settles O37: what waits for the window, by the work of the Array Controller. -/
theorem settleExpiryEndsTheProcedure : Obligations.SettleExpiryEndsTheProcedure := by
  intro s point hlow hsettle n
  have hexec := exec_modeSettleExpiry hlow hsettle
  refine ⟨fun hp hl ha => ?_, fun hp hl ha => ?_, fun hp => ?_, fun hp ha => ?_, fun hp ha => ?_,
    fun hp => ?_, fun hp => ?_, fun hp ha hprobe => ?_⟩ <;> refine hexec.trans (congrArg _ ?_)
  · exact State.afterSettle_starting hp hl ha
  · exact State.afterSettle_setting hp hl (fun e => by cases ha.symm.trans e)
  · exact State.afterSettle_stays hp
  · exact State.afterSettle_aligned hp (fun e => by cases ha.symm.trans e)
  · exact State.afterSettle_startUpAligned hp ha
  · exact State.afterSettle_exit hp
  · exact State.afterSettle_suspended hp
  · exact State.afterSettle_resumed hp ha hprobe

/-- Settles O38: the retain minimum by the held exit, and the exit time by the divisor. -/
theorem retainWindowsExpire : Obligations.RetainWindowsExpire := by
  intro s point hlow n
  refine ⟨fun hp hx => ?_, fun hp hx => ?_, fun hp => ?_, fun m0 hp ha hm hj hc hw => ?_,
    fun p hp hw hlt => ?_⟩
  · rw [exec_retainMinExpiry hlow hp, if_neg (by simp [hx])]
    rfl
  · intro p
    rw [exec_retainMinExpiry hlow hp, if_pos hx]
    rfl
  · rw [exec_retainExitTimeExpiry_same hlow hp]
    rfl
  · rw [exec_retainExitTimeExpiry_changed hlow hp]
    refine congrArg _ ((State.lockRestartStep_loads (s := s.atAC n) hj hc (expired_iff.2 hw) hm).trans ?_)
    rw [State.loadMode_restart (by exact fun e => by cases ha.symm.trans e)
      (by exact fun e => by cases ha.symm.trans e)]
    rfl
  · rw [exec_retainExitTimeExpiry_changed hlow hp]
    exact congrArg _ (State.lockRestartStep_waits (s := s.atAC n)
      (expired_eq_false_iff.2 ⟨p, hw, hlt⟩))

end Sys2Proof.Machine

/-! Strobe probes (R14, R155 to R158), and the last operation of a doze or a retain entry (R13). -/

namespace Sys2Proof.Machine

/-! ### The sampling of a lane -/

section
variable {x : Lane} {tap : Nat} {v : Bool} {d : BitVec 6}

theorem Lane.sample_idle (hs : x.searching = false) : x.sample tap v = x := by
  simp [Lane.sample, hs]

theorem Lane.delayAfter_idle (hs : x.searching = false) : x.delayAfter tap v d = d := by
  simp [Lane.delayAfter, hs]

/-- Sample 1 after sample 0 locks a searching lane (R156). -/
theorem Lane.sample_locks (hs : x.searching = true)
    (h : 1 ≤ tap ∧ v = true ∧ x.trace.getLast? = some false) :
    x.sample tap v = ⟨.locked, some tap, x.trace ++ [v], false⟩ := by
  rw [Lane.sample, if_pos hs, if_pos h]

/-- At tap 63 a searching lane that does not lock has failed (R156). -/
theorem Lane.sample_fails (hs : x.searching = true)
    (h : ¬ (1 ≤ tap ∧ v = true ∧ x.trace.getLast? = some false)) (ht : 63 ≤ tap) :
    x.sample tap v = ⟨.failed, none, x.trace ++ [v], false⟩ := by
  rw [Lane.sample, if_pos hs, if_neg h, if_pos ht]

theorem Lane.sample_goesOn (hs : x.searching = true)
    (h : ¬ (1 ≤ tap ∧ v = true ∧ x.trace.getLast? = some false)) (ht : tap < 63) :
    x.sample tap v = { x with trace := x.trace ++ [v] } := by
  rw [Lane.sample, if_pos hs, if_neg h, if_neg (by omega)]

theorem Lane.sample_trace (hs : x.searching = true) : (x.sample tap v).trace = x.trace ++ [v] := by
  rw [Lane.sample, if_pos hs]
  (repeat' split) <;> rfl

theorem Lane.delayAfter_locks (hs : x.searching = true)
    (h : 1 ≤ tap ∧ v = true ∧ x.trace.getLast? = some false) :
    x.delayAfter tap v d = BitVec.ofNat 6 tap := by
  simp [Lane.delayAfter, hs, Lane.sample_locks hs h]

theorem Lane.delayAfter_unlocked (hs : x.searching = true) (ho : x.outcome = .none)
    (h : ¬ (1 ≤ tap ∧ v = true ∧ x.trace.getLast? = some false)) : x.delayAfter tap v d = d := by
  have hout : (x.sample tap v).outcome ≠ .locked := by
    by_cases ht : 63 ≤ tap
    · simp [Lane.sample_fails hs h ht]
    · simp [Lane.sample_goesOn hs h (Nat.not_le.1 ht), ho]
  simp [Lane.delayAfter, hout]

/-- The sampling of a lane and its working delay after it (R155, R156). -/
theorem Lane.sample_spec (x : Lane) (tap : Nat) (v : Bool) (d : BitVec 6) :
    (x.searching = false → x.sample tap v = x ∧ x.delayAfter tap v d = d) ∧
    (x.searching = true → (x.sample tap v).trace = x.trace ++ [v]) ∧
    (x.searching = true → 1 ≤ tap → v = true → x.trace.getLast? = some false →
      (x.sample tap v).outcome = .locked ∧ (x.sample tap v).lockTap = some tap ∧
        (x.sample tap v).searching = false ∧ x.delayAfter tap v d = BitVec.ofNat 6 tap) ∧
    (x.searching = true → x.outcome = .none →
      ¬ (1 ≤ tap ∧ v = true ∧ x.trace.getLast? = some false) → x.delayAfter tap v d = d) ∧
    (x.searching = true → 63 ≤ tap → ¬ (v = true ∧ x.trace.getLast? = some false) →
      (x.sample tap v).outcome = .failed ∧ (x.sample tap v).lockTap = none ∧
        (x.sample tap v).searching = false) ∧
    (x.searching = true → tap < 63 → ¬ (1 ≤ tap ∧ v = true ∧ x.trace.getLast? = some false) →
      (x.sample tap v).searching = true ∧ (x.sample tap v).outcome = x.outcome) := by
  refine ⟨fun hs => ⟨sample_idle hs, delayAfter_idle hs⟩, sample_trace, fun hs ht hv hl => ?_,
    delayAfter_unlocked, fun hs ht h => ?_, fun hs ht h => ?_⟩
  · rw [sample_locks hs ⟨ht, hv, hl⟩]
    exact ⟨rfl, rfl, rfl, delayAfter_locks hs ⟨ht, hv, hl⟩⟩
  · rw [sample_fails hs (fun hl => h hl.2) ht]
    exact ⟨rfl, rfl, rfl⟩
  · rw [sample_goesOn hs h ht]
    exact ⟨hs, rfl⟩

end

/-! ### Whether the next probe is issued -/

section
variable {s : State}

theorem Ctrl.inAlignMode_of {c : Ctrl} {m1 : Word} (h : c.copies.get 1 = some m1)
    (hb : m1.getLsbD 7 = true) : c.inAlignMode = true := by
  simp [Ctrl.inAlignMode, h, alignMode, hb]

/-- A probe may be issued (R155). -/
theorem State.mayProbe_of {m1 : Word} (hj : s.sched.job = some .procedure)
    (hw : s.probeWanted = true) (hm : s.ctrl.copies.get 1 = some m1) (hb : m1.getLsbD 7 = true)
    (hp : s.ctrl.probe = none) (hs : s.table.modeSettle = none) (hh : s.ctrl.readHold = none)
    (hr : s.sched.lastReadEnd ≤ s.now) (hwr : s.sched.lastWriteEnd ≤ s.now) : s.mayProbe = true := by
  simp [State.mayProbe, hj, hw, Ctrl.inAlignMode_of hm hb, hp, State.settled, hs, State.holdInForce,
    hh, expired, hr, hwr]

theorem State.probeWanted_probing (hp : s.ctrl.progress = .probing) :
    s.probeWanted = !s.urgentClaim := by
  simp [State.probeWanted, hp]

theorem State.probeWanted_due (hp : s.ctrl.progress = .probeDue) : s.probeWanted = true := by
  simp [State.probeWanted, hp]

/-- The choice after a probe moves the Array Controller's work alone. -/
theorem State.nextProbe_work (s : State) :
    s.nextProbe = { s with ctrl.progress := s.nextProbe.ctrl.progress } := by
  rcases s.nextProbe_spec with ⟨-, e⟩ | ⟨-, e⟩
  · rw [e]
  · rcases s.suspendForRefresh_spec with e' | ⟨-, -, e'⟩ <;> rw [e, e']

/-- An urgent claim suspends an ALIGN after its probe (R158). -/
theorem State.nextProbe_suspends (hp : s.ctrl.progress = .probing) (hn : s.ctrl.probe = none)
    (hu : s.urgentClaim = true) (ha : s.ctrl.arrayState = .aligning) :
    s.nextProbe.ctrl.progress = .suspendClear := by
  have hno : s.mayProbe = false := by
    simp [State.mayProbe, State.probeWanted_probing hp, hu]
  simp [State.nextProbe, hno, State.suspendForRefresh, hp, hn, hu, ha]

theorem State.nextProbe_due (h : s.mayProbe = true) : s.nextProbe.ctrl.progress = .probeDue := by
  rw [State.nextProbe, if_pos h]

theorem exec_strobeProbe (hlow : s.resetLow = false) (h : s.mayProbe = true)
    (ha : s.ctrl.arrayState ≠ .ready) :
    exec .strobeProbe s = .next { s with
      now := s.issuePoint
      port := some ⟨.strobeProbe, s.issuePoint⟩
      ctrl.progress := .probing
      ctrl.probe := some ⟨s.issuePoint + s.setup.working.get 14, s.ctrl.nextTap,
        #v[s.ctrl.drivenTap 0 s.ctrl.nextTap, s.ctrl.drivenTap 1 s.ctrl.nextTap]⟩ } := by
  have hpoint : s.strobeProbeAt = some s.issuePoint := if_pos h
  show execStrobeProbe s = _
  rw [execStrobeProbe, State.takeAt_high hlow hpoint]
  simp only [State.issue, if_neg ha]
  rfl

/-- The state after the sampling of a probe (R155, R156). -/
def State.sampled (s : State) (p : Probe) (v0 v1 : Bool) : State :=
  { s.atAC (max s.now p.point) with ctrl := s.ctrl.sampleTap p.tap v0 v1 }

theorem exec_strobeProbeCompletion {p : Probe} {v0 v1 : Bool} (hlow : s.resetLow = false)
    (hp : s.ctrl.probe = some p) :
    exec (.strobeProbeCompletion v0 v1) s = .next (
      if (s.sampled p v0 v1).ctrl.searching = true then (s.sampled p v0 v1).nextProbe
      else { s.sampled p v0 v1 with ctrl.progress := .endClear }) := by
  have hpoint : s.probeCompletionAt = some (max s.now p.point) :=
    congrArg (Option.map fun p : Probe => s.pointOf p.point) hp
  show execStrobeProbeCompletion v0 v1 s = _
  rw [execStrobeProbeCompletion, State.takeAt_high hlow hpoint, hp]
  rfl

end

/-- What the end of a probe leaves of the sampled state: the work alone is decided anew. -/
theorem State.afterProbe_work (u : State) :
    (if u.ctrl.searching = true then u.nextProbe else { u with ctrl.progress := .endClear }) =
      { u with ctrl.progress :=
        if u.ctrl.searching = true then u.nextProbe.ctrl.progress else .endClear } := by
  split
  · exact u.nextProbe_work
  · rfl

/-- Settles O39: the probe's issue, and the sampling of each lane with what follows it. -/
theorem strobeProbesTestTheTaps : Obligations.StrobeProbesTestTheTaps := by
  refine ⟨fun s m1 hlow hj hp hm hb hn hs hh hr hw ha => ?_, fun s p v0 v1 hlow hp => ?_⟩
  · have hwanted : s.probeWanted = true := by
      rcases hp with ⟨hp, hlt⟩ | hp
      · rw [State.probeWanted_probing hp, State.urgentClaim, decide_eq_false (Int.not_le.2 hlt)]
        rfl
      · exact State.probeWanted_due hp
    exact exec_strobeProbe hlow (State.mayProbe_of hj hwanted hm hb hn hs hh hr hw) ha
  · have hexec := exec_strobeProbeCompletion (v0 := v0) (v1 := v1) hlow hp
    rw [State.afterProbe_work] at hexec
    refine ⟨_, hexec, rfl, fun lane => ?_, fun hsearch => if_neg ?_, fun hsearch hprobing =>
      ⟨fun hu ha => ?_, fun m1 hu hj hm hb hs hh hr hw => ?_⟩⟩
    · obtain ⟨lane, hlane⟩ := lane
      interval_cases lane
      · exact Lane.sample_spec (s.ctrl.lanes.get 0) p.tap v0 (s.ctrl.delays.get 0)
      · exact Lane.sample_spec (s.ctrl.lanes.get 1) p.tap v1 (s.ctrl.delays.get 1)
    · exact Bool.eq_false_iff.1 hsearch
    · refine (if_pos hsearch).trans ?_
      exact State.nextProbe_suspends hprobing rfl (decide_eq_true hu) ha
    · refine (if_pos hsearch).trans (State.nextProbe_due ?_)
      have hwanted : (s.sampled p v0 v1).probeWanted = true := by
        rw [State.probeWanted_probing (s := s.sampled p v0 v1) hprobing]
        exact congrArg not (decide_eq_false (Int.not_le.2 hu))
      exact State.mayProbe_of hj hwanted hm hb rfl hs hh (hr.trans (Nat.le_max_left _ _))
        (hw.trans (Nat.le_max_left _ _))

/-! ### NAP_IN and RETAIN_IN -/

/-- The last operation of an entry is due (R65, R166, R172). -/
theorem State.entryDue_of {s : State} {d : Drain} (hj : s.sched.job = some .procedure)
    (hp : s.ctrl.progress = .due d) (hc : s.allClosed = true) (hr : s.table.renewWindow = none)
    (hs : s.table.modeSettle = none) : s.entryDue d = true := by
  simp [State.entryDue, hj, hp, hc, State.renewOver, hr, State.settled, hs, expired]

/-- Settles O53: the entry that is due is issued at once. -/
theorem napInDozesAndRetainInRetains : Obligations.NapInDozesAndRetainInRetains := by
  intro s hlow hj hc hr hs n
  refine ⟨fun hp => ?_, fun hp => ?_⟩
  · have hpoint : s.napInAt = some n := if_pos (State.entryDue_of hj hp hc hr hs)
    show execNapIn s = _
    rw [execNapIn, State.takeAt_high hlow hpoint]
    rfl
  · have hpoint : s.retainInAt = some n := if_pos (State.entryDue_of hj hp hc hr hs)
    show execRetainIn s = _
    rw [execRetainIn, State.takeAt_high hlow hpoint]
    rfl

/-! ### MODE_LOAD -/

section
variable {s : State}

/-- A MODE_LOAD that is due, at the first AC of the command lines (R12). -/
theorem exec_modeLoad {word : Fin 4} {v : Word} {next : Progress} (hlow : s.resetLow = false)
    (hd : s.dueLoad = some (word, v, next)) :
    exec .modeLoad s = .next (State.suspendForRefresh { s.loadMode word v s.issuePoint with
      ctrl.progress := next
      ctrl.loadWords := s.ctrl.remainingLoads }) := by
  have hpoint : s.modeLoadAt = some s.issuePoint := by
    rw [State.modeLoadAt, hd]
    rfl
  show execModeLoad s = _
  rw [execModeLoad, State.takeAt_high hlow hpoint, hd]

/-- Only the beginning of the probing can be suspended by a claim (R158). -/
theorem State.suspendForRefresh_other (h : s.ctrl.progress ≠ .probing) : s.suspendForRefresh = s := by
  rcases s.suspendForRefresh_spec with e | ⟨hp, -, -⟩
  · exact e
  · exact absurd hp h

theorem State.suspendForRefresh_probing (h : s.ctrl.progress = .probing) :
    s.suspendForRefresh = { s with ctrl.progress :=
      if s.ctrl.arrayState = .aligning ∧ s.ctrl.probe = none ∧
        s.refresh.urgentLevel ≤ s.refresh.balance then .suspendClear else .probing } := by
  by_cases hc : s.ctrl.arrayState = .aligning ∧ s.ctrl.probe = none ∧
      s.refresh.urgentLevel ≤ s.refresh.balance
  · obtain ⟨ha, hn, hu⟩ := hc
    simp [State.suspendForRefresh, State.urgentClaim, h, ha, hn, hu]
  · rw [if_neg hc, ← h]
    refine if_neg fun hall => hc ?_
    simp only [Bool.and_eq_true, decide_eq_true_eq, Option.isNone_iff_eq_none, State.urgentClaim] at hall
    obtain ⟨⟨⟨-, hn⟩, hu⟩, ha⟩ := hall
    exact ⟨ha, hn, hu⟩

/-- A load that is not of a list leaves the list (R142, R150). -/
theorem Ctrl.remainingLoads_other {c : Ctrl} (hl : c.progress ≠ .loading)
    (hs : c.progress ≠ .due .setMode) : c.remainingLoads = c.loadWords := by
  unfold Ctrl.remainingLoads
  split <;> simp_all

/-- A MODE_LOAD of M1 with its array copy's value, before an urgent claim is looked at (R154, R157,
R158, R162). -/
theorem exec_modeLoad_align {v : Word} {next : Progress} (hlow : s.resetLow = false)
    (ha : s.ctrl.arrayState ≠ .ready) (hd : s.dueLoad = some (1, v, next))
    (hl : s.ctrl.progress ≠ .loading) (hs : s.ctrl.progress ≠ .due .setMode) :
    exec .modeLoad s = .next (State.suspendForRefresh { s with
      now := s.issuePoint
      port := some ⟨.modeLoad 1 v, s.issuePoint⟩
      ctrl.progress := next
      ctrl.copies := s.ctrl.copies.set 1 (some v)
      table.modeHold := some (s.issuePoint + s.setup.working.get 7)
      table.modeSettle := some (s.issuePoint + s.setup.working.get 8) }) := by
  rw [exec_modeLoad hlow hd, State.loadMode_other ha (by decide), Ctrl.remainingLoads_other hl hs]
  rfl

/-- A MODE_LOAD of M1 that begins no probing. -/
theorem exec_modeLoad_quiet {v : Word} {next : Progress} (hlow : s.resetLow = false)
    (ha : s.ctrl.arrayState ≠ .ready) (hd : s.dueLoad = some (1, v, next))
    (hl : s.ctrl.progress ≠ .loading) (hs : s.ctrl.progress ≠ .due .setMode) (hn : next ≠ .probing) :
    exec .modeLoad s = .next { s with
      now := s.issuePoint
      port := some ⟨.modeLoad 1 v, s.issuePoint⟩
      ctrl.progress := next
      ctrl.copies := s.ctrl.copies.set 1 (some v)
      table.modeHold := some (s.issuePoint + s.setup.working.get 7)
      table.modeSettle := some (s.issuePoint + s.setup.working.get 8) } :=
  (exec_modeLoad_align hlow ha hd hl hs).trans (congrArg _ (State.suspendForRefresh_other hn))

/-- A MODE_LOAD of M1 that begins the probing; an urgent claim suspends an ALIGN at once (R158). -/
theorem exec_modeLoad_probes {v : Word} (hlow : s.resetLow = false) (ha : s.ctrl.arrayState ≠ .ready)
    (hd : s.dueLoad = some (1, v, .probing)) (hl : s.ctrl.progress ≠ .loading)
    (hs : s.ctrl.progress ≠ .due .setMode) :
    exec .modeLoad s = .next { s with
      now := s.issuePoint
      port := some ⟨.modeLoad 1 v, s.issuePoint⟩
      ctrl.progress :=
        if s.ctrl.arrayState = .aligning ∧ s.ctrl.probe = none ∧
          s.refresh.urgentLevel ≤ s.refresh.balance then .suspendClear else .probing
      ctrl.copies := s.ctrl.copies.set 1 (some v)
      table.modeHold := some (s.issuePoint + s.setup.working.get 7)
      table.modeSettle := some (s.issuePoint + s.setup.working.get 8) } :=
  (exec_modeLoad_align hlow ha hd hl hs).trans (congrArg _ (State.suspendForRefresh_probing rfl))

/-- The load of the next word of a start-up or a SET_MODE (R142, R150). -/
theorem State.dueLoad_list {w : Fin 4} {rest : List (Fin 4)} (hj : s.sched.job = some .procedure)
    (hp : s.ctrl.progress = .loading ∨ (s.ctrl.progress = .due .setMode ∧
      s.table.renewWindow = none ∧ s.table.modeSettle = none))
    (hl : s.ctrl.loadWords = w :: rest) (hc : s.allClosed = true) (hh : s.table.modeHold = none) :
    s.dueLoad = some (w, s.ctrl.imageValue w, .loading) ∧ s.ctrl.remainingLoads = rest := by
  rcases hp with hp | ⟨hp, hr, hs⟩
  · simp [State.dueLoad, Ctrl.remainingLoads, hj, hp, hl, hc, State.modeHoldOver, hh, expired]
  · simp [State.dueLoad, Ctrl.remainingLoads, hj, hp, hl, hc, State.modeHoldOver, hh, expired,
      State.renewOver, hr, State.settled, hs]

/-- The value that is loaded from the image (R142, R150). -/
theorem Ctrl.imageValue_eq (c : Ctrl) (w : Fin 4) : c.imageValue w =
    if c.arrayState = .starting ∧ w = 0 then c.loadImage.get w ||| 0x0100#16
    else if c.arrayState = .starting ∧ w = 1 then c.loadImage.get w &&& 0xFF7F#16
    else c.loadImage.get w := by
  by_cases ha : c.arrayState = .starting
  · simp [Ctrl.imageValue, ha, lockRestartMask, not_alignModeMask]
  · simp [Ctrl.imageValue, ha]

end

/-- Settles O52: the due load by the work, and then its issue. -/
theorem modeLoadSetsTheArrayCopy : Obligations.ModeLoadSetsTheArrayCopy := by
  refine ⟨fun s w rest hlow hj hp hl hc hh ha => ?_, fun s m1 hlow hj hc hh hm ha => ?_,
    fun s m0 hlow hj hc hh hm ha hp => ?_⟩
  · intro n image v restart
    obtain ⟨hdue, hrest⟩ := State.dueLoad_list hj hp hl hc hh
    have hv : s.ctrl.imageValue w = v := s.ctrl.imageValue_eq w
    have hready : s.ctrl.arrayState ≠ .ready := by rcases ha with ha | ha <;> simp [ha]
    have hhold : (restart ∧ s.ctrl.arrayState ≠ .starting) ↔
        (restart ∧ s.ctrl.arrayState = .setting) := by
      rcases ha with ha | ha <;> simp [ha]
    rw [exec_modeLoad hlow hdue, hrest, hv,
      State.suspendForRefresh_other (by exact fun e => by cases e), State.loadMode_eq hready]
    have hread : (if restart ∧ s.ctrl.arrayState ≠ .starting then some (n + s.setup.working.get 9)
        else s.ctrl.readHold) = if restart ∧ s.ctrl.arrayState = .setting then
          some (n + s.setup.working.get 9) else s.ctrl.readHold := if_congr hhold rfl rfl
    rw [← hread]
  · intro n loads probes
    have hover : s.modeHoldOver = true := by simp [State.modeHoldOver, hh, expired]
    have hrenew (h : s.table.renewWindow = none) : s.renewOver = true := by
      simp [State.renewOver, h, expired]
    refine ⟨fun hp => ?_, fun hp hr => ?_, fun hp hr => ?_, fun hp => ?_, fun hp => ?_, fun hp => ?_⟩
    · exact exec_modeLoad_probes hlow ha
        (by simp [State.dueLoad, hj, hc, hover, hp, hm, alignModeMask]) (by simp [hp]) (by simp [hp])
    · exact exec_modeLoad_probes hlow ha
        (by simp [State.dueLoad, hj, hc, hover, hp, hm, alignModeMask, hrenew hr]) (by simp [hp])
        (by simp [hp])
    · exact exec_modeLoad_quiet hlow ha
        (by simp [State.dueLoad, hj, hc, hover, hp, hm, alignModeMask, hrenew hr]) (by simp [hp])
        (by simp [hp]) (by simp)
    · exact exec_modeLoad_quiet hlow ha
        (by simp [State.dueLoad, hj, hc, hover, hp, hm, not_alignModeMask]) (by simp [hp])
        (by simp [hp]) (by simp)
    · exact exec_modeLoad_quiet hlow ha
        (by simp [State.dueLoad, hj, hc, hover, hp, hm, not_alignModeMask]) (by simp [hp])
        (by simp [hp]) (by simp)
    · exact exec_modeLoad_quiet hlow ha
        (by simp [State.dueLoad, hj, hc, hover, hp, hm, not_alignModeMask]) (by simp [hp])
        (by simp [hp]) (by simp)
  · intro n
    have hover : s.modeHoldOver = true := by simp [State.modeHoldOver, hh, expired]
    have hready : s.ctrl.arrayState ≠ .ready := by simp [ha]
    have hstarting : s.ctrl.arrayState ≠ .starting := by simp [ha]
    rw [exec_modeLoad hlow (State.dueLoad_exitLoad hp hj hc hover hm),
      Ctrl.remainingLoads_other (by simp [hp]) (by simp [hp]),
      State.loadMode_restart hready hstarting]
    exact congrArg _ (State.suspendForRefresh_other (by exact fun e => by cases e))

end Sys2Proof.Machine

/-! Segments and blocks of a request (R2 to R6). -/

namespace Sys2Proof.Machine

/-! ### The address split -/

section
variable {g : Geometry} {a : Nat}

/-- A row of the array is a multiple of 8 words long (R1). -/
theorem Geometry.cols_of_allowed (h : g.allowed) : g.cols = 512 ∨ g.cols = 1024 := by
  obtain ⟨-, hcols⟩ := h
  simpa using hcols

theorem columnOf_lt (h : g.allowed) : columnOf g a < g.cols :=
  Nat.mod_lt _ (by rcases Geometry.cols_of_allowed h with e | e <;> omega)

/-- An address is its row, bank and column (R2). -/
theorem address_split (h : g.allowed) :
    rowOf g a * (8 * g.cols) + (bankOf g a).val * g.cols + columnOf g a = a := by
  rcases Geometry.cols_of_allowed h with e | e <;> simp only [rowOf, bankOf, columnOf, e] <;> omega

theorem columnOf_mod_four (h : g.allowed) : columnOf g a % 4 = a % 4 := by
  refine Nat.mod_mod_of_dvd a ?_
  rcases Geometry.cols_of_allowed h with e | e <;> rw [e] <;> decide

/-- The words that follow an address up to the end of its row lie in its bank and row (R2). -/
theorem sameRow {k : Nat} (h : g.allowed) (hk : columnOf g a + k < g.cols) :
    bankOf g (a + k) = bankOf g a ∧ rowOf g (a + k) = rowOf g a := by
  unfold columnOf at hk
  unfold bankOf rowOf
  rw [Fin.mk.injEq]
  rcases Geometry.cols_of_allowed h with e | e <;> rw [e] at hk ⊢ <;> omega

/-- Column 0 follows the end of a row (R2). -/
theorem columnOf_add_eq_zero {k : Nat} (h : g.allowed) (hpos : 0 < k)
    (hk : columnOf g a + k ≤ g.cols) : columnOf g (a + k) = 0 ↔ columnOf g a + k = g.cols := by
  unfold columnOf at hk ⊢
  rcases Geometry.cols_of_allowed h with e | e <;> rw [e] at hk ⊢ <;> omega

end

/-! ### Blocks -/

/-- The length of the burst that begins at a column, by the last requested column (R4). -/
def burstLength (column last : Nat) : Nat := if column % 8 = 0 ∧ column + 4 ≤ last then 8 else 4

theorem burstLength_cases (column last : Nat) :
    (column % 8 = 0 ∧ column + 4 ≤ last ∧ burstLength column last = 8) ∨
      (¬ (column % 8 = 0 ∧ column + 4 ≤ last) ∧ burstLength column last = 4) := by
  unfold burstLength
  split <;> simp_all

/-- The block at a position of a request (R4). -/
theorem Request.blockAt_eq {r : Request} {g : Geometry} {position : Nat} (h : position < r.length) :
    let p := columnOf g (r.address + position)
    let last := p + min (r.length - position) (g.cols - p) - 1
    let n := burstLength (p - p % 4) last
    r.blockAt g position = some {
      bank := bankOf g (r.address + position)
      row := rowOf g (r.address + position)
      column := p - p % 4
      length := n
      base := r.address + position - (p - (p - p % 4))
      first := position
      count := min (p - p % 4 + n) (last + 1) - p
      endsSegment := decide (last < p - p % 4 + n) } :=
  if_pos h

/-- Settles O40: the block's fields, and then the words of its segment from the position on. -/
theorem blocksCoverTheRequest : Obligations.BlocksCoverTheRequest := by
  intro r g position hg hlt p last
  have hp : p < g.cols := columnOf_lt hg
  have hcols : g.cols % 8 = 0 := by rcases Geometry.cols_of_allowed hg with e | e <;> omega
  have hsplit := address_split (a := r.address + position) hg
  have hp4 : p % 4 = (r.address + position) % 4 := columnOf_mod_four hg
  have hlength := burstLength_cases (p - p % 4) last
  have hblock := Request.blockAt_eq (r := r) (g := g) hlt
  have hcolumn : columnOf g (r.address + position) = p := rfl
  rw [hcolumn] at hsplit
  dsimp only at hblock
  rw [hcolumn] at hblock
  have hlast : last = p + min (r.length - position) (g.cols - p) - 1 := rfl
  rw [← hlast] at hblock
  generalize hn : burstLength (p - p % 4) last = n at hlength hblock
  generalize hc : min (p - p % 4 + n) (last + 1) - p = count at hblock
  have hend : p - p % 4 + n ≤ g.cols := by omega
  have hcount : 0 < count := by omega
  have hin : p + count ≤ g.cols := by omega
  have hends : last < p - p % 4 + n ↔ position + count = r.length ∨ p + count = g.cols := by omega
  refine ⟨_, hblock, rfl, rfl, rfl, rfl, hn.symm, hend, ?_, ?_, hcount, ?_, fun i hi hlt => ?_,
    fun k hk => ?_, ?_, fun ha hl hpos => ?_⟩
  · dsimp only
    omega
  · dsimp only
    omega
  · dsimp only
    omega
  · dsimp only
    omega
  · exact sameRow hg (by rw [hcolumn]; dsimp only at hk; omega)
  · rw [columnOf_add_eq_zero hg hcount (by rw [hcolumn]; exact hin), hcolumn, decide_eq_true_iff]
    exact hends
  · dsimp only
    have hp0 : p % 4 = 0 := by omega
    omega

end Sys2Proof.Machine

/-! The issue of READ_BURSTs and WRITE_BURSTs (R9 to R11, R89, R126, R127). -/

namespace Sys2Proof.Machine

section
variable {s : State} {a : Active} {x : Block}

/-! ### The first AC of a burst -/

/-- The first AC at which a READ_BURST's data follow those before them (R7, R11). -/
theorem State.readIssuePoint_spec (s : State) (l : Nat) :
    s.issuePoint ≤ s.readIssuePoint l ∧ s.sched.lastReadEnd ≤ s.readIssuePoint l + l ∧
      s.sched.lastWriteEnd + 2 ≤ s.readIssuePoint l + l ∧
      (s.readIssuePoint l = s.issuePoint ∨ s.readIssuePoint l + l = s.sched.lastReadEnd ∨
        s.readIssuePoint l + l = s.sched.lastWriteEnd + 2) := by
  unfold State.readIssuePoint
  omega

theorem State.writeIssuePoint_spec (s : State) (w : Nat) :
    s.issuePoint ≤ s.writeIssuePoint w ∧ s.sched.lastWriteEnd ≤ s.writeIssuePoint w + w ∧
      s.sched.lastReadEnd + 1 ≤ s.writeIssuePoint w + w ∧
      (s.writeIssuePoint w = s.issuePoint ∨ s.writeIssuePoint w + w = s.sched.lastWriteEnd ∨
        s.writeIssuePoint w + w = s.sched.lastReadEnd + 1) := by
  unfold State.writeIssuePoint
  omega

/-! ### The block of the ACTIVE record -/

theorem Request.secondSegment_isSome (r : Request) (g : Geometry) :
    (r.secondSegment g).isSome = true ↔ g.cols - columnOf g r.address < r.length := by
  have hcount : (r.firstSegment g).count = min r.length (g.cols - columnOf g r.address) := rfl
  unfold Request.secondSegment
  dsimp only
  rw [hcount]
  split
  · next h => exact iff_of_true rfl (by omega)
  · next h => exact iff_of_false Bool.false_ne_true (by omega)

/-- The record once a block has been issued (R89). -/
theorem Active.advance_eq (a : Active) (g : Geometry) (x : Block) : a.advance g x = { a with
    position := a.position + x.count
    segment :=
      if x.endsSegment = true ∧ a.segment = 0 ∧ g.cols - columnOf g a.req.address < a.req.length then 1
      else a.segment } := by
  simp only [Active.advance, Bool.and_eq_true, decide_eq_true_eq, Request.secondSegment_isSome,
    and_assoc]

/-- The bank and the sequencer allow a burst (R14, R62). -/
theorem State.burstAllowed_of {b : Fin 8} {row : Nat} (ho : (s.bank b).state = .opened)
    (hr : (s.bank b).openRow = some row) (hm : (s.bank b).mark = false) (hs : s.settled = true)
    (ha : s.ctrl.inAlignMode = false) : s.burstAllowed b row = true := by
  simp [State.burstAllowed, Bank.readyFor_iff.2 ⟨ho, hr, hm⟩, hs, ha]

theorem State.settled_of_none (h : s.table.modeSettle = none) : s.settled = true := by
  simp [State.settled, h, expired]

/-- A READ_BURST that is due is issued at its first AC (R9, R11). -/
theorem exec_readBurst {l : Nat} (hlow : s.resetLow = false) (hd : s.dueRead = some (a, x, l)) :
    exec .readBurst s = .next (s.issueRead a x l (s.readIssuePoint l)) := by
  have hpoint : s.readBurstAt = some (s.readIssuePoint l) := by
    rw [State.readBurstAt, hd]
    rfl
  show execReadBurst s = _
  rw [execReadBurst, State.takeAt_high hlow hpoint, hd]

/-- A WRITE_BURST that is due is issued at its first AC (R10, R11). -/
theorem exec_writeBurst {data : List Word} {user : BurstUser} {w : Nat} (hlow : s.resetLow = false)
    (hd : s.dueWrite = some ((x, data, user), w)) :
    exec .writeBurst s =
      .next ((s.issueWrite x data user w (s.writeIssuePoint w)).afterWrite x user) := by
  have hpoint : s.writeBurstAt = some (s.writeIssuePoint w) := by
    rw [State.writeBurstAt, hd]
    rfl
  show execWriteBurst s = _
  rw [execWriteBurst, State.takeAt_high hlow hpoint, hd]

theorem State.dueRead_of {m0 : Word} (hb : s.recordBlock = some (a, x)) (hk : a.req.kind.reads = true)
    (hh : s.ctrl.readHold = none) (hm : s.ctrl.copies.get 0 = some m0) :
    s.dueRead = some (a, x, m0.toNat % 16) := by
  simp [State.dueRead, hb, hk, State.holdInForce, hh, expired, hm, readLatencyField]

theorem State.dueWrite_of {m2 : Word} {y : Block × List Word × BurstUser}
    (hb : s.writeBlock = some y) (hm : s.ctrl.copies.get 2 = some m2) :
    s.dueWrite = some (y, m2.toNat % 16) := by
  rw [State.dueWrite, hb, hm]
  rfl

/-- The WRITE_BURST of a record's job (R53, R55). -/
theorem State.writeBlock_recordBurst {data : List Word} (hj : s.sched.job = some .recordBurst)
    (hb : s.recordBlock = some (a, x)) (hk : a.req.kind.reads = false)
    (hd : a.req.writeData s.staging x = some data) : s.writeBlock = some (x, data, .record) := by
  simp [State.writeBlock, hj, hb, hk, hd]

/-- The data of a WRITE are its span words, those of a FILL its pattern (R53, R55). -/
theorem Request.writeData_of {r : Request} {b : Staging} {data : List Word}
    (h : (∃ slot, r.kind = .write ∧ r.slot = some slot ∧ data = (List.range x.length).map
        fun k => b.word (slot * 64 + (x.base + k - r.address))) ∨
      (∃ v, r.kind = .fill ∧ r.pattern = some v ∧ data = List.replicate x.length v)) :
    r.kind.reads = false ∧ r.writeData b x = some data := by
  rcases h with ⟨slot, hk, hs, rfl⟩ | ⟨v, hk, hp, rfl⟩
  · simp [Request.writeData, hk, hs, Kind.reads, pairedWord]
  · simp [Request.writeData, hk, hp, Kind.reads]

/-! ### The advance of a chunk -/

theorem flags_or_zero (f : BitVec 8) : f ||| 0 = f := BitVec.or_zero

theorem State.markIfReached_eq (s : State) : s.markIfReached = { s with
    events.flags := s.events.flags |||
      (if s.capture.producer = s.capture.mark.toNat then 0x02#8 else 0) } := by
  unfold State.markIfReached
  split
  · rfl
  · rw [flags_or_zero]

theorem State.endRunIfEmpty_eq (s : State) : s.endRunIfEmpty = { s with
    capture.state :=
      if s.capture.state = .draining ∧ s.capture.fifo = [] then .idle else s.capture.state
    events.flags := s.events.flags |||
      (if s.capture.state = .draining ∧ s.capture.fifo = [] then 0x08#8 else 0) } := by
  simp only [State.endRunIfEmpty, Bool.and_eq_true, decide_eq_true_eq, List.isEmpty_iff]
  split
  · rfl
  · rw [flags_or_zero]

/-- The fourth burst of a chunk advances the run (R127). -/
theorem State.chunkAdvance_eq (s : State) :
    let producer := (s.capture.producer + 32) % (s.capture.size.toNat * 32)
    let ended := s.capture.state = .draining ∧ s.capture.fifo.length ≤ 32
    s.chunkAdvance = { s with
      sched.job := none
      capture := { s.capture with
        fifo := s.capture.fifo.drop 32
        producer := producer
        state := if ended then .idle else s.capture.state }
      events := { s.events with
        flags := s.events.flags ||| (if producer = s.capture.mark.toNat then 0x02#8 else 0) |||
          (if ended then 0x08#8 else 0) } } := by
  intro producer ended
  rw [State.chunkAdvance, State.markIfReached_eq, State.endRunIfEmpty_eq]
  simp only [List.drop_eq_nil_iff]
  rfl

/-- A chunk's WRITE_BURST as issued (R10, R126). -/
theorem State.issueWrite_chunk (s : State) (j w n : Nat) (user : BurstUser) :
    s.issueWrite (s.chunkBlock j).1 (s.chunkBlock j).2 user w n =
      let g := s.setup.workGeometry
      let address := s.capture.base.toNat + s.capture.producer
      let b := bankOf g address
      { s with
        now := n
        port := some ⟨.writeBurst b (columnOf g address + 8 * j) 8, n⟩
        ctrl.dozeTimer := DozeTimerAfter s n
        table.banks := s.table.banks.set b.val { s.bank b with writeRecovery := .pending } b.isLt
        sched := { s.sched with
          inFlight := s.sched.inFlight ++ [⟨true, user, b, rowOf g address, address + 8 * j, 8,
            (s.capture.fifo.drop (8 * j)).take 8, 8 * j, 8, decide (j = 3), n + w + 4,
            s.ctrl.delays⟩]
          lastWriteEnd := n + w + 4 } } := by
  have hlength : (s.chunkBlock j).1.length = 8 := rfl
  have hhalf : 8 / 2 = 4 := rfl
  unfold State.issueWrite
  rw [hlength, hhalf]
  rfl

/-- A chunk goes on with its next burst (R126). -/
theorem State.afterWrite_chunk (s : State) (x : Block) :
    s.afterWrite x (.chunk false) = { s with sched.job := some (.chunk (x.first / 8 + 1)) } := rfl

theorem State.afterWrite_lastChunk (s : State) (x : Block) :
    s.afterWrite x (.chunk true) = s.chunkAdvance := rfl

end

/-- Settles O41: the burst that is due, at its first AC. -/
theorem readBurstIsIssuedForTheActiveRecord : Obligations.ReadBurstIsIssuedForTheActiveRecord := by
  intro s a x m0 hlow hj ha hab hk hx ho hr hm hs hal hh hm0 l
  have hblock : s.recordBlock = some (a, x) := State.recordBlock_eq_some.2
    ⟨hj, ha, hx, hab, State.burstAllowed_of ho hr hm (State.settled_of_none hs) hal⟩
  obtain ⟨hissue, hread, hwrite, hfirst⟩ := s.readIssuePoint_spec l
  exact ⟨s.readIssuePoint l, _,
    exec_readBurst hlow (State.dueRead_of hblock (Kind.reads_iff_read.2 hk) hh hm0),
    hissue, hread, hwrite, hfirst, rfl, congrArg some (a.advance_eq _ x)⟩

/-- Settles O43: the first three bursts, and the advance at the fourth. -/
theorem chunkWritesFourBurstsAndAdvances : Obligations.ChunkWritesFourBurstsAndAdvances := by
  intro s j m2 hlow hj hle g address b w ho hr hm hs hal hm2
  have hsettled : s.settled = true := expired_iff.2 hs
  have hblock : s.writeBlock = some ((s.chunkBlock j).1, (s.chunkBlock j).2,
      .chunk (decide (j = 3))) := by
    have hallowed : s.burstAllowed (s.chunkBlock j).1.bank (s.chunkBlock j).1.row = true :=
      State.burstAllowed_of ho hr hm hsettled hal
    simp [State.writeBlock, hj, hallowed]
  obtain ⟨hissue, hwrite, hread, hfirst⟩ := s.writeIssuePoint_spec w
  have hexec := exec_writeBurst hlow (State.dueWrite_of hblock hm2)
  rw [State.issueWrite_chunk] at hexec
  rcases Nat.lt_or_eq_of_le hle with hlt | rfl
  · have hnot : decide (j = 3) = false := decide_eq_false (Nat.ne_of_lt hlt)
    have hindex : (s.chunkBlock j).1.first / 8 = j := Nat.mul_div_cancel_left j (by decide)
    rw [hnot, State.afterWrite_chunk, hindex] at hexec
    rw [hnot]
    exact ⟨s.writeIssuePoint w, _, hexec, hissue, hwrite, hread, hfirst, rfl, fun _ => ⟨rfl, rfl, rfl⟩,
      fun e => absurd e (Nat.ne_of_lt hlt)⟩
  · rw [show decide (3 = 3) = true from rfl, State.afterWrite_lastChunk, State.chunkAdvance_eq] at hexec
    exact ⟨s.writeIssuePoint w, _, hexec, hissue, hwrite, hread, hfirst, rfl,
      fun e => absurd e (by decide), fun _ => ⟨rfl, rfl, rfl⟩⟩

/-- Settles O42: the burst that is due, at its first AC, with the data of its kind. -/
theorem writeBurstIsIssuedForTheActiveRecord : Obligations.WriteBurstIsIssuedForTheActiveRecord := by
  intro s a x m2 data hlow hj ha hab hd hx ho hr hm hs hal hm2 w
  have hblock : s.recordBlock = some (a, x) := State.recordBlock_eq_some.2
    ⟨hj, ha, hx, hab, State.burstAllowed_of ho hr hm (State.settled_of_none hs) hal⟩
  obtain ⟨hk, hdata⟩ := Request.writeData_of hd
  obtain ⟨hissue, hwrite, hread, hfirst⟩ := s.writeIssuePoint_spec w
  refine ⟨s.writeIssuePoint w,
    (s.issueWrite x data .record w (s.writeIssuePoint w)).afterWrite x .record,
    exec_writeBurst hlow (State.dueWrite_of (State.writeBlock_recordBurst hj hblock hk hdata) hm2),
    hissue, hwrite, hread, hfirst, rfl, ?_⟩
  refine (congrArg (Option.map fun a : Active => a.advance s.setup.workGeometry x) ha).trans ?_
  exact congrArg some (a.advance_eq _ x)

end Sys2Proof.Machine

/-! The completions of bursts (R9, R10, R52, R54, R58, R71 to R73, R90 to R92, R97). -/

namespace Sys2Proof.Machine

/-! ### Row decisions -/

/-- A row decision is read off the Bank Table. -/
theorem RowDecided.of_table {s t u : State} {b : Fin 8} {row : Nat} {shut : Prop} {e : Bank}
    (h : RowDecided s t b row shut e) (ht : u.table = t.table) : RowDecided s u b row shut e := by
  have hbank (c : Fin 8) : u.bank c = t.bank c := congrArg (fun x => x.banks.get c) ht
  obtain ⟨htable, hother, hmarks, hstays⟩ := h
  refine ⟨?_, fun c hc => (hbank c).trans (hother c hc), fun hm => (hbank b).trans (hmarks hm),
    fun hm => (hbank b).trans (hstays hm)⟩
  rw [ht]
  exact htable

/-- The state before the decision may differ in the entry of the bank itself. -/
theorem RowDecided.of_base {s u t : State} {b : Fin 8} {row : Nat} {shut : Prop} {e : Bank}
    (h : RowDecided u t b row shut e) (htable : u.table = { s.table with banks := u.table.banks })
    (hother : ∀ c : Fin 8, c ≠ b → u.bank c = s.bank c) : RowDecided s t b row shut e := by
  obtain ⟨htable', hother', hdecided⟩ := h
  refine ⟨?_, fun c hc => (hother' c hc).trans (hother c hc), hdecided⟩
  rw [htable', htable]

/-- A row that is left as it is. -/
theorem rowDecided_stays {s : State} {b : Fin 8} {row : Nat} {shut : Prop} (h : ¬ shut) :
    RowDecided s s b row shut (s.bank b) :=
  ⟨rfl, fun _ _ => rfl, fun hm => absurd hm.1 h, fun _ => rfl⟩

/-- A row that is shut, if its bank holds or is opening it (R67). -/
theorem rowDecided_markRow {s : State} {b : Fin 8} {row : Nat} {shut : Prop} (h : shut) :
    RowDecided s (s.markRow b row) b row shut (s.bank b) := by
  have hrow : (s.bank b).hasRow row = true ↔
      ((s.bank b).state = .opening ∨ (s.bank b).state = .opened) ∧ (s.bank b).openRow = some row :=
    decide_eq_true_iff
  have hself : (s.markRow b row).bank b = (s.bank b).markRow row := by
    rw [State.markRow, State.setBank_bank, if_pos rfl]
  refine ⟨rfl, fun c hc => ?_, fun hm => ?_, fun hm => ?_⟩
  · rw [State.markRow, State.setBank_bank, if_neg hc]
  · rw [hself, Bank.markRow, if_pos (hrow.2 hm.2)]
  · rw [hself, Bank.markRow, if_neg fun hr => hm ⟨h, hrow.1 hr⟩]

/-- The row policy, by its negation (R72, R73). -/
theorem State.policyKeeps_eq_false_iff {s : State} {b : Fin 8} {row : Nat} {wanted : Bool} :
    s.policyKeeps b row wanted = false ↔ s.table.policy = .closedPage ∨
      (s.table.policy = .adaptive ∧ ¬ QueuedIn s b row ∧ wanted = false) := by
  rw [← Bool.not_eq_true, State.policyKeeps_iff]
  cases s.table.policy <;> simp [QueuedIn]

section
variable {s : State} {a : Active} {x : Burst}

/-- The decision at a segment end marks the row that `SegmentShuts` shuts (R71, R72). -/
theorem State.segmentEnd_shuts (h : SegmentShuts s a x) : s.segmentEnd a x = s.markRow x.bank x.row := by
  obtain ⟨hends, habort, hclose⟩ := h
  rw [State.segmentEnd, if_pos (by simp [hends, habort])]
  rcases hclose with hshut | ⟨hpolicy, hrow⟩
  · rw [hshut]
    rfl
  · rw [hpolicy]
    refine if_neg ?_
    rw [Bool.not_eq_true, State.policyKeeps_eq_false_iff, ← Bool.not_eq_true,
      Request.segmentAfter_liesIn]
    exact hrow

theorem State.segmentEnd_stays (h : ¬ SegmentShuts s a x) : s.segmentEnd a x = s := by
  unfold State.segmentEnd
  split
  · next hends =>
    simp only [Bool.and_eq_true, Bool.not_eq_true'] at hends
    obtain ⟨hends, habort⟩ := hends
    unfold State.segmentDecision
    split
    · rfl
    · next hshut => exact absurd ⟨hends, habort, Or.inl hshut⟩ h
    · next hpolicy =>
      refine if_pos ?_
      by_contra hkeeps
      rw [Bool.not_eq_true, State.policyKeeps_eq_false_iff, ← Bool.not_eq_true,
        Request.segmentAfter_liesIn] at hkeeps
      exact h ⟨hends, habort, Or.inr ⟨hpolicy, hkeeps⟩⟩
  · rfl

theorem State.segmentEnd_decided (s : State) (a : Active) (x : Burst) :
    RowDecided s (s.segmentEnd a x) x.bank x.row (SegmentShuts s a x) (s.bank x.bank) := by
  by_cases h : SegmentShuts s a x
  · rw [State.segmentEnd_shuts h]
    exact rowDecided_markRow h
  · rw [State.segmentEnd_stays h]
    exact rowDecided_stays h

/-! ### The end of a record -/

/-- A completion is the record's last (R92, R97). -/
def State.LastOf (s : State) (a : Active) : Prop :=
  (a.aborting = true ∨ a.req.length ≤ a.position) ∧
    (¬ ∃ y, y ∈ s.sched.inFlight ∧ y.user = .record) ∧ s.bus.softPending = false

/-- The completion of the ACTIVE record at its last burst (R33, R34, R92, R97). -/
def State.lastCompletion (s : State) (a : Active) : Completion :=
  if a.aborting = true then a.completion .aborted none s.refresh.retentionLost
  else a.completion a.outcome.1 a.outcome.2 s.refresh.retentionLost

theorem recordInFlight_iff {l : List Burst} :
    l.any (fun y => decide (y.user = .record)) = true ↔ ∃ y, y ∈ l ∧ y.user = .record := by
  simp

/-- At its last completion the record joins the queue's tail (R31). -/
theorem State.finishIfLast_last (h : s.LastOf a) :
    s.finishIfLast a = { s.retire a.req (s.lastCompletion a) with pool.active := none } := by
  obtain ⟨hdone, hflight, hpending⟩ := h
  rcases s.finishIfLast_cases a with ⟨hbusy, -⟩ | ⟨-, -, ⟨ha, e⟩ | ⟨ha, hlt, -⟩ | ⟨ha, -, e⟩⟩
  · rcases hbusy with hbusy | hbusy
    · exact absurd (recordInFlight_iff.1 hbusy) hflight
    · exact absurd hbusy (by simp [hpending])
  · rw [e, State.lastCompletion, if_pos ha]
    rfl
  · rcases hdone with hdone | hdone
    · exact absurd hdone (by simp [ha])
    · omega
  · rw [e, State.lastCompletion, if_neg (by simp [ha])]
    rfl

theorem State.finishIfLast_goesOn (h : ¬ s.LastOf a) :
    s.finishIfLast a = { s with pool.active := some a } := by
  rcases s.finishIfLast_cases a with ⟨-, e⟩ | ⟨hflight, hpending, hlast⟩
  · exact e
  · have hnone : ¬ ∃ y, y ∈ s.sched.inFlight ∧ y.user = .record := fun hy => by
      rw [recordInFlight_iff.2 hy] at hflight
      cases hflight
    rcases hlast with ⟨ha, -⟩ | ⟨-, -, e⟩ | ⟨-, hle, -⟩
    · exact absurd ⟨Or.inl ha, hnone, hpending⟩ h
    · exact e
    · exact absurd ⟨Or.inr hle, hnone, hpending⟩ h

/-- What the end of a record changes (R31, R39, R45). -/
theorem State.finishIfLast_changes (s : State) (a : Active) :
    ∃ pool owner flags, s.finishIfLast a =
      { s with pool := pool, staging.owner := owner, events.flags := flags } := by
  by_cases h : s.LastOf a
  · rw [State.finishIfLast_last h, State.retire, Staging.setOwner_owner]
    exact ⟨_, _, _, rfl⟩
  · rw [State.finishIfLast_goesOn h]
    exact ⟨_, s.staging.owner, s.events.flags, rfl⟩

/-! ### The completion of a record's burst -/

/-- The words of a READ's burst reach its span, and nothing else changes (R52). -/
theorem State.storeRequested_words (s : State) (r : Request) (x : Burst) :
    s.storeRequested r x =
      { s with staging.words := (s.storeRequested r x).staging.words } := by
  unfold State.storeRequested
  split <;> rfl

/-- What the completion of a burst of the ACTIVE record does from `s` to `t` (R90 to R92, R97). -/
structure RecordCompletion (s : State) (a : Active) (x : Burst) (t : State) : Prop where
  /-- The parts that it leaves as they are. -/
  rest : t = { s with pool := t.pool, staging := t.staging, events := t.events, table := t.table }
  words : t.staging.words = (s.storeRequested a.req x).staging.words
  epoch : t.staging.epoch = s.staging.epoch
  row : RowDecided s t x.bank x.row (SegmentShuts s a x) (s.bank x.bank)
  last : s.LastOf a → RecordFinished s t a.req (s.lastCompletion (s.counted a x))
  goesOn : ¬ s.LastOf a → t.pool = { s.pool with active := some (s.counted a x) } ∧
    t.staging.owner = s.staging.owner ∧ t.events = s.events

theorem State.completeForRecord_completes (s : State) (x : Burst) (h : s.pool.active = some a) :
    RecordCompletion s a x (s.completeForRecord x) := by
  rw [State.completeForRecord_some s x a h, State.storeRequested_words]
  generalize hw : (s.storeRequested a.req x).staging.words = words
  generalize hc : s.counted a x = c
  have hreq : c.req = a.req := by rw [← hc]; rfl
  let u : State := { s with staging.words := words, pool.active := some c }
  have hrow : RowDecided s (u.segmentEnd c x) x.bank x.row (SegmentShuts s a x) (s.bank x.bank) := by
    rw [← hc]
    exact State.segmentEnd_decided u _ x
  obtain ⟨banks, hmarks, -⟩ := State.segmentEnd_marksOnly u c x
  have hlast : s.LastOf a ↔ (u.segmentEnd c x).LastOf c := by
    rw [hmarks, ← hc]
    rfl
  obtain ⟨pool, owner, flags, hchanges⟩ := State.finishIfLast_changes (u.segmentEnd c x) c
  refine ⟨?_, ?_, ?_, hrow.of_table ?_, fun hl => ?_, fun hl => ?_⟩
  · change (u.segmentEnd c x).finishIfLast c = _
    rw [hchanges, hmarks]
  · change ((u.segmentEnd c x).finishIfLast c).staging.words = _
    rw [hchanges, hmarks, hw]
  · change ((u.segmentEnd c x).finishIfLast c).staging.epoch = _
    rw [hchanges, hmarks]
  · change ((u.segmentEnd c x).finishIfLast c).table = _
    rw [hchanges]
  · change RecordFinished s ((u.segmentEnd c x).finishIfLast c) a.req _
    rw [State.finishIfLast_last (hlast.1 hl), hmarks, ← hreq, hc]
    exact ⟨rfl, fun i => Staging.setOwner_covers u.staging c.req none i, rfl⟩
  · change ((u.segmentEnd c x).finishIfLast c).pool = _ ∧
      ((u.segmentEnd c x).finishIfLast c).staging.owner = _ ∧
      ((u.segmentEnd c x).finishIfLast c).events = _
    rw [State.finishIfLast_goesOn (mt hlast.2 hl), hmarks, hc]
    exact ⟨rfl, rfl, rfl⟩

theorem RecordCompletion.keeps {t : State} (h : RecordCompletion s a x t) :
    t.now = s.now ∧ t.sched = s.sched ∧ t.array = s.array ∧ t.refresh = s.refresh ∧
      t.capture = s.capture ∧ t.ctrl = s.ctrl ∧ t.setup = s.setup ∧ t.bus = s.bus ∧
      t.port = s.port := by
  rw [h.rest]
  exact ⟨rfl, rfl, rfl, rfl, rfl, rfl, rfl, rfl, rfl⟩

theorem RecordCompletion.word {t : State} (h : RecordCompletion s a x t) (w : Nat) :
    t.staging.word w = (s.storeRequested a.req x).staging.word w := by
  have hepoch : (s.storeRequested a.req x).staging.epoch = s.staging.epoch := by
    rw [State.storeRequested_words]
  rw [Staging.word, Staging.word, h.words, h.epoch, hepoch]

/-! ### What is counted -/

theorem State.counted_other (hk : a.req.kind ≠ .compare) :
    s.counted a x = { a with wordsDone := a.wordsDone + x.count } := by
  unfold State.counted
  split
  · contradiction
  · rfl

/-- The outcome of a record that is no COMPARE (R33). -/
theorem State.lastCompletion_other (hk : a.req.kind ≠ .compare) :
    s.lastCompletion a = ⟨a.req.tag, a.req.kind, a.seq,
      if a.aborting = true then .aborted else .done, a.wordsDone,
      if a.req.kind.reads = true then some s.refresh.retentionLost else none, none⟩ := by
  have houtcome : a.outcome = (.done, none) := by
    unfold Active.outcome
    split
    · contradiction
    · rfl
  unfold State.lastCompletion
  rw [houtcome]
  split <;> rfl

/-- The differing words of a COMPARE's burst, by their place in it (R54). -/
theorem findIdx?_range (n : Nat) (p : Nat → Bool) :
    (List.range n).findIdx? p = ((List.range n).filter p).head? := by
  rw [List.head?_filter]
  induction n with
  | zero => rfl
  | succ n ih =>
    rw [List.range_succ, List.findIdx?_append, List.find?_append, ih, List.length_range]
    congr 1
    cases h : p n <;> simp [h]

theorem zip_requested (s : State) (r : Request) (slot : Nat) (x : Burst) :
    (s.requestedWords r x).zip (s.staging.spanWords slot x) =
      (List.range x.count).map fun k => (s.array.readBy x (r.address + (x.first + k)),
        s.staging.word (slot * 64 + (x.first + k))) :=
  List.zip_map' ..

/-- The tally of a COMPARE after a burst: its first offset, once set, stays (R54, R90). -/
theorem State.counted_tally {slot : Nat} {first : Option Nat} (hk : a.req.kind = .compare)
    (hs : a.req.slot = some slot) :
    let differs (k : Nat) : Bool := decide (s.array.readBy x (a.req.address + (x.first + k)) ≠
      s.staging.word (slot * 64 + (x.first + k)))
    let found := (List.range x.count).filter differs
    (∀ i, a.tally.first = some i → first = some i) →
    (a.tally.first = none → first = found.head?.map fun k => x.first + k) →
    s.counted a x = { a with
      wordsDone := a.wordsDone + x.count
      tally := ⟨a.tally.count + found.length, first⟩ } := by
  intro differs found hset hnone
  let pair (k : Nat) : Word × Word := (s.array.readBy x (a.req.address + (x.first + k)),
    s.staging.word (slot * 64 + (x.first + k)))
  obtain ⟨hcount, hfirst⟩ := Tally.compare_spec ((List.range x.count).map pair) a.tally x.first
  have hfound : (((List.range x.count).map pair).filter fun p => decide (p.1 ≠ p.2)).length =
      found.length := by
    rw [List.filter_map, List.length_map]
    rfl
  have hplace : ((List.range x.count).map pair).findIdx? (fun p => decide (p.1 ≠ p.2)) =
      found.head? := by
    rw [List.findIdx?_map]
    exact findIdx?_range x.count differs
  have hfirst' : (a.tally.compare x.first ((List.range x.count).map pair)).first = first := by
    rw [hfirst, hplace]
    cases h : a.tally.first with
    | some i => exact (hset i h).symm
    | none => exact (hnone h).symm
  have htally : a.tally.compare x.first ((List.range x.count).map pair) =
      ⟨a.tally.count + found.length, first⟩ := by
    rw [← hfirst', ← hfound, ← hcount]
  rw [← htally]
  simp only [State.counted, hk, hs, zip_requested]
  rfl

/-- The outcome of a COMPARE at its last completion (R34). -/
theorem State.lastCompletion_aborted (hab : a.aborting = true) :
    s.lastCompletion a = a.completion .aborted none s.refresh.retentionLost :=
  if_pos hab

theorem State.lastCompletion_mismatch {i : Nat} (hk : a.req.kind = .compare) (hab : a.aborting = false)
    (hfirst : a.tally.first = some i) : s.lastCompletion a =
      a.completion .mismatch (some (i, a.tally.count)) s.refresh.retentionLost := by
  simp [State.lastCompletion, hab, Active.outcome, hk, hfirst]

theorem State.lastCompletion_equal (hk : a.req.kind = .compare) (hab : a.aborting = false)
    (hfirst : a.tally.first = none) :
    s.lastCompletion a = a.completion .done none s.refresh.retentionLost := by
  simp [State.lastCompletion, hab, Active.outcome, hk, hfirst]

theorem Active.completion_compare (hk : a.req.kind = .compare) (result : Result)
    (mismatch : Option (Nat × Nat)) (lost : Bool) :
    a.completion result mismatch lost =
      ⟨a.req.tag, .compare, a.seq, result, a.wordsDone, some lost, mismatch⟩ := by
  simp [Active.completion, suspectField, hk, Kind.reads]

end

/-- The completion of a read that is the oldest burst in flight, at its point (R9, R11). -/
theorem exec_readBurstCompletion {s : State} {x : Burst} {rest : List Burst} (hlow : s.resetLow = false)
    (hf : s.sched.inFlight = x :: rest) (hr : x.isWrite = false) :
    exec .readBurstCompletion s = .next (State.completeForRecord
      { s.atAC (max s.now x.done) with sched.inFlight := rest } x) := by
  have hpoint : s.burstCompletionAt false = some (max s.now x.done) := by
    rw [State.burstCompletionAt, hf]
    exact if_pos hr
  show execReadBurstCompletion s = _
  rw [execReadBurstCompletion, State.takeAt_high hlow hpoint, hf]

/-- Settles O44: the completion of the record's burst, with the words of a READ. -/
theorem readCompletionStoresTheRequestedWords : Obligations.ReadCompletionStoresTheRequestedWords := by
  intro s a x rest slot hlow hf hr ha hk hs word wordsDone
  have hexec := exec_readBurstCompletion hlow hf hr
  let u : State := { s.atAC (max s.now x.done) with sched.inFlight := rest }
  have h := State.completeForRecord_completes u x ha
  change exec .readBurstCompletion s = .next (u.completeForRecord x) at hexec
  generalize u.completeForRecord x = t at h hexec
  have hkind : a.req.kind ≠ .compare := by simp [hk]
  have hcounted : u.counted a x = { a with wordsDone := wordsDone } := State.counted_other hkind
  have hcompletion : u.lastCompletion (u.counted a x) = ⟨a.req.tag, .read, a.seq,
      if a.aborting = true then .aborted else .done, wordsDone, some s.refresh.retentionLost, none⟩ := by
    rw [hcounted, State.lastCompletion_other (by exact hkind)]
    simp only [hk]
    rfl
  obtain ⟨hnow, hsched, harray, hrefresh, hcapture, hctrl, hsetup, hbus, hport⟩ := h.keeps
  refine ⟨t, hexec, hnow, hsched, harray, hrefresh, hcapture, hctrl, hsetup, hbus, hport,
    fun w => (h.word w).trans (State.storeRequested_word u a.req x slot w hk hs), h.row, ?_⟩
  intro last
  refine ⟨fun hl => ?_, fun hl => ?_⟩
  · rw [← hcompletion]
    exact h.last hl
  · rw [← hcounted]
    exact h.goesOn hl

/-- Settles O45: the completion of the record's burst, with the tally of a COMPARE. -/
theorem compareCompletionCountsTheDifferences : Obligations.CompareCompletionCountsTheDifferences := by
  intro s a x rest slot hlow hf hr ha hk hs word differs found count first wordsDone
  have hset (i : Nat) (hi : a.tally.first = some i) : first = some i := by
    simp only [first, hi]
  have hnone (hn : a.tally.first = none) : first = found.head?.map fun k => x.first + k := by
    simp only [first, hn]
  clear_value first
  have hexec := exec_readBurstCompletion hlow hf hr
  let u : State := { s.atAC (max s.now x.done) with sched.inFlight := rest }
  have h := State.completeForRecord_completes u x ha
  change exec .readBurstCompletion s = .next (u.completeForRecord x) at hexec
  generalize u.completeForRecord x = t at h hexec
  have hcounted : u.counted a x =
      { a with wordsDone := wordsDone, tally := ⟨count, first⟩ } :=
    State.counted_tally hk hs hset hnone
  obtain ⟨hnow, hsched, harray, hrefresh, hcapture, hctrl, hsetup, hbus, hport⟩ := h.keeps
  have hwords : t.staging.words = s.staging.words := h.words.trans
    (congrArg (fun v => v.staging.words) (State.storeRequested_other u a.req x (by simp [hk])))
  have hlast (hl : u.LastOf a) := h.last hl
  rw [hcounted] at hlast
  refine ⟨t, hexec, hnow, hsched, harray, hrefresh, hcapture, hctrl, hsetup, hbus, hport, hwords,
    h.epoch, h.row, ?_⟩
  intro last
  refine ⟨fun hl hab => ?_, fun hl hab => ?_, fun hl => ?_⟩
  · have hfinished := hlast hl
    rw [State.lastCompletion_aborted (by exact hab), Active.completion_compare (by exact hk)] at hfinished
    exact hfinished
  · have hfinished := hlast hl
    cases first with
    | some i =>
      rw [State.lastCompletion_mismatch (by exact hk) (by exact hab) rfl,
        Active.completion_compare (by exact hk)] at hfinished
      exact hfinished
    | none =>
      rw [State.lastCompletion_equal (by exact hk) (by exact hab) rfl,
        Active.completion_compare (by exact hk)] at hfinished
      exact hfinished
  · rw [← hcounted]
    exact h.goesOn hl

/-! ### Write completions -/

theorem Request.secondSegment_liesIn (r : Request) (g : Geometry) (b : Fin 8) (row : Nat) :
    ((r.secondSegment g).map fun y => y.liesIn b row).getD false = true ↔
      (let count := min r.length (g.cols - columnOf g r.address)
       count < r.length ∧ bankOf g (r.address + count) = b ∧ rowOf g (r.address + count) = row) := by
  show _ ↔ (r.firstSegment g).count < r.length ∧ bankOf g (r.address + (r.firstSegment g).count) = b ∧
    rowOf g (r.address + (r.firstSegment g).count) = row
  unfold Request.secondSegment
  by_cases h : (r.firstSegment g).count < r.length
  · rw [if_pos h]
    simp only [Option.map_some, Option.getD_some, Segment.liesIn_iff, h, true_and]
    rfl
  · rw [if_neg h]
    simp [h]

/-- The current or the next segment of a record lies in a row (R73). -/
theorem Active.segmentsLieIn_iff (a : Active) (g : Geometry) (b : Fin 8) (row : Nat) :
    ((((a.req.segment g a.segment).map fun y => y.liesIn b row).getD false ||
      ((a.req.segment g (a.segment + 1)).map fun y => y.liesIn b row).getD false) = true) ↔
      (let count := min a.req.length (g.cols - columnOf g a.req.address)
       (a.segment = 0 ∧ bankOf g a.req.address = b ∧ rowOf g a.req.address = row) ∨
        (a.segment ≤ 1 ∧ count < a.req.length ∧ bankOf g (a.req.address + count) = b ∧
          rowOf g (a.req.address + count) = row)) := by
  have hfirst : (a.req.firstSegment g).liesIn b row = true ↔
      bankOf g a.req.address = b ∧ rowOf g a.req.address = row := Segment.liesIn_iff _ _ _
  rw [Bool.or_eq_true]
  by_cases h0 : a.segment = 0
  · simp [h0, Request.segment, hfirst, a.req.secondSegment_liesIn g b row]
  · by_cases h1 : a.segment = 1
    · simp [h1, Request.segment, a.req.secondSegment_liesIn g b row]
    · have h2 : ¬ a.segment ≤ 1 := by omega
      simp [h0, h1, h2, Request.segment]

/-- No segment of the ACTIVE record and no chunk position lies in a row (R73). -/
theorem State.chunkWants_eq_false_iff {s : State} {b : Fin 8} {row : Nat} :
    let g := s.setup.workGeometry
    let lies (address : Nat) : Prop := bankOf g address = b ∧ rowOf g address = row
    (s.activeWants b row || s.captureWants b row) = false ↔
      (∀ a, s.pool.active = some a →
        let count := min a.req.length (g.cols - columnOf g a.req.address)
        ¬ (a.segment = 0 ∧ lies a.req.address) ∧
        ¬ (a.segment ≤ 1 ∧ count < a.req.length ∧ lies (a.req.address + count))) ∧
      (s.capture.state ≠ .idle → ¬ lies (s.capture.base.toNat + s.capture.producer)) := by
  intro g lies
  have hcapture : s.captureWants b row = true ↔
      s.capture.state ≠ .idle ∧ lies (s.capture.base.toNat + s.capture.producer) := decide_eq_true_iff
  rw [Bool.or_eq_false_iff]
  refine and_congr ?_ ?_
  · cases ha : s.pool.active with
    | none => simp [State.activeWants, ha]
    | some a =>
      have hactive := a.segmentsLieIn_iff g b row
      have hwants : s.activeWants b row =
          (((a.req.segment g a.segment).map fun y => y.liesIn b row).getD false ||
            ((a.req.segment g (a.segment + 1)).map fun y => y.liesIn b row).getD false) := by
        rw [State.activeWants, ha]
      rw [← Bool.not_eq_true, hwants, hactive, not_or]
      simp only [Option.some.injEq, forall_eq']
      exact Iff.rfl
  · rw [← Bool.not_eq_true, hcapture, not_and]

/-- A chunk's last burst shuts its row unless the policy keeps it (R73). -/
theorem chunkShuts_iff {s : State} {x : Burst} : ChunkShuts s x ↔
    s.policyKeeps x.bank x.row (s.activeWants x.bank x.row || s.captureWants x.bank x.row) = false := by
  have hwants := State.chunkWants_eq_false_iff (s := s) (b := x.bank) (row := x.row)
  rw [State.policyKeeps_eq_false_iff]
  exact or_congr_right (and_congr_right fun _ => and_congr_right fun _ => hwants.symm)

theorem State.chunkDecision_decided (s : State) (x : Burst) :
    RowDecided s (s.chunkDecision x.bank x.row) x.bank x.row (ChunkShuts s x) (s.bank x.bank) := by
  by_cases h : ChunkShuts s x
  · rw [State.chunkDecision, if_neg (by simp [chunkShuts_iff.1 h])]
    exact rowDecided_markRow h
  · rw [State.chunkDecision, if_pos (by simpa using mt chunkShuts_iff.2 h)]
    exact rowDecided_stays h

/-- The completion of a write that is the oldest burst in flight, at its point (R10, R11). -/
theorem exec_writeBurstCompletion {s : State} {x : Burst} {rest : List Burst} (hlow : s.resetLow = false)
    (hf : s.sched.inFlight = x :: rest) (hr : x.isWrite = true) :
    exec .writeBurstCompletion s = .next (State.completeWrite (State.writeLands
      { s.atAC (max s.now x.done) with sched.inFlight := rest } x (max s.now x.done)) x) := by
  have hpoint : s.burstCompletionAt true = some (max s.now x.done) := by
    rw [State.burstCompletionAt, hf]
    exact if_pos hr
  show execWriteBurstCompletion s = _
  rw [execWriteBurstCompletion, State.takeAt_high hlow hpoint, hf]

/-- The words of a write, and no other, are in the array (R10). -/
theorem State.writeLands_word (s : State) (x : Burst) (t w : Nat) :
    (s.writeLands x t).array.word w =
      if x.base ≤ w ∧ w < x.base + x.data.length then x.data.getD (w - x.base) 0
      else s.array.word w := by
  show ((s.array.words.writeAll x.base x.data).read w).getD _ = _
  rw [Memory.read_writeAll]
  split
  · next h =>
    have hlt : w - x.base < x.data.length := by omega
    simp [List.getElem?_eq_getElem hlt]
  · rfl

theorem State.writeLands_bank (s : State) (x : Burst) (t : Nat) (c : Fin 8) :
    (s.writeLands x t).bank c =
      if c = x.bank then { s.bank x.bank with writeRecovery := s.writeRecoveryAfter x.bank t }
      else s.bank c :=
  State.setBank_bank s x.bank c _

theorem State.writeRecoveryAfter_eq (s : State) (b : Fin 8) (t : Nat) : s.writeRecoveryAfter b t =
    if ∃ y, y ∈ s.sched.inFlight ∧ y.isWrite = true ∧ y.bank = b then .pending
    else .ends (t + s.setup.working.get 3) := by
  refine if_congr ?_ rfl rfl
  simp

/-- The end of a write's recovery does not hang on the decision of its row. -/
theorem RowDecided.writeRecovery {s t : State} {b : Fin 8} {row : Nat} {shut : Prop} {e : Bank}
    (h : RowDecided s t b row shut e) : (t.bank b).writeRecovery = e.writeRecovery := by
  obtain ⟨-, -, hmarks, hstays⟩ := h
  by_cases hm : shut ∧ (e.state = .opening ∨ e.state = .opened) ∧ e.openRow = some row
  · rw [hmarks hm]
  · rw [hstays hm]

theorem RowDecided.congr {s t : State} {b : Fin 8} {row : Nat} {shut shut' : Prop} {e : Bank}
    (h : RowDecided s t b row shut e) (hiff : shut ↔ shut') : RowDecided s t b row shut' e :=
  propext hiff ▸ h

/-- What a write's completion leaves as it is, whoever its user is. -/
theorem State.completeWrite_keeps (s : State) (x : Burst) :
    (s.completeWrite x).now = s.now ∧ (s.completeWrite x).sched = s.sched ∧
    (s.completeWrite x).array = s.array ∧ (s.completeWrite x).refresh = s.refresh ∧
    (s.completeWrite x).capture = s.capture ∧ (s.completeWrite x).ctrl = s.ctrl ∧
    (s.completeWrite x).setup = s.setup ∧ (s.completeWrite x).bus = s.bus ∧
    (s.completeWrite x).port = s.port ∧
    ((s.completeWrite x).bank x.bank).writeRecovery = (s.bank x.bank).writeRecovery := by
  unfold State.completeWrite
  split
  · cases ha : s.pool.active with
    | none =>
      rw [State.completeForRecord, ha]
      exact ⟨rfl, rfl, rfl, rfl, rfl, rfl, rfl, rfl, rfl, rfl⟩
    | some a =>
      have h := State.completeForRecord_completes s x ha
      obtain ⟨hnow, hsched, harray, hrefresh, hcapture, hctrl, hsetup, hbus, hport⟩ := h.keeps
      exact ⟨hnow, hsched, harray, hrefresh, hcapture, hctrl, hsetup, hbus, hport, h.row.writeRecovery⟩
  · have hrecovery := (s.chunkDecision_decided x).writeRecovery
    obtain ⟨banks, hmarks, -⟩ := s.chunkDecision_marksOnly x.bank x.row
    rw [hmarks] at hrecovery ⊢
    exact ⟨rfl, rfl, rfl, rfl, rfl, rfl, rfl, rfl, rfl, hrecovery⟩
  · exact ⟨rfl, rfl, rfl, rfl, rfl, rfl, rfl, rfl, rfl, rfl⟩

/-- A chunk's completion touches no record, and its fourth decides the row (R73, R128). -/
theorem State.completeWrite_chunk {s : State} {x : Burst} {l : Bool} (hu : x.user = .chunk l) :
    (s.completeWrite x).pool = s.pool ∧ (s.completeWrite x).staging = s.staging ∧
      (s.completeWrite x).events = s.events ∧
      RowDecided s (s.completeWrite x) x.bank x.row (l = true ∧ ChunkShuts s x) (s.bank x.bank) := by
  cases l with
  | true =>
    have hwrite : s.completeWrite x = s.chunkDecision x.bank x.row := by rw [State.completeWrite, hu]
    have hrow : RowDecided s (s.chunkDecision x.bank x.row) x.bank x.row
        (true = true ∧ ChunkShuts s x) (s.bank x.bank) :=
      (s.chunkDecision_decided x).congr ⟨fun h => ⟨rfl, h⟩, And.right⟩
    obtain ⟨banks, hmarks, -⟩ := s.chunkDecision_marksOnly x.bank x.row
    rw [hwrite]
    rw [hmarks] at hrow ⊢
    exact ⟨rfl, rfl, rfl, hrow⟩
  | false =>
    have hwrite : s.completeWrite x = s := by rw [State.completeWrite, hu]
    rw [hwrite]
    exact ⟨rfl, rfl, rfl, rowDecided_stays (by simp)⟩

/-- Settles O46: the write's words and its bank, then its user. -/
theorem writeCompletionPutsTheWordsInTheArray : Obligations.WriteCompletionPutsTheWordsInTheArray := by
  intro s x rest hlow hf hr recovery e
  have hexec := exec_writeBurstCompletion hlow hf hr
  let u : State := { s.atAC (max s.now x.done) with sched.inFlight := rest }
  let v : State := u.writeLands x (max s.now x.done)
  have hword (w : Nat) := u.writeLands_word x (max s.now x.done) w
  have hbank (c : Fin 8) := u.writeLands_bank x (max s.now x.done) c
  have hrecovery : u.writeRecoveryAfter x.bank (max s.now x.done) = recovery :=
    u.writeRecoveryAfter_eq x.bank (max s.now x.done)
  have he : v.bank x.bank = e := by
    rw [show v.bank x.bank = _ from hbank x.bank, if_pos rfl, hrecovery]
    rfl
  have hother (c : Fin 8) (hc : c ≠ x.bank) : v.bank c = s.bank c :=
    (hbank c).trans (if_neg hc)
  obtain ⟨hnow, hsched, harray, hrefresh, hcapture, hctrl, hsetup, hbus, hport, hrec⟩ :=
    v.completeWrite_keeps x
  refine ⟨v.completeWrite x, hexec, hnow, hsched, hcapture, hctrl, hrefresh, hsetup, hbus, hport,
    fun w => ?_, ?_, fun l hu => ?_, fun a hu ha hk => ?_⟩
  · rw [harray]
    exact hword w
  · rw [hrec, he]
  · obtain ⟨hpool, hstaging, hevents, hrow⟩ := State.completeWrite_chunk (s := v) hu
    rw [he] at hrow
    exact ⟨hpool, hstaging, hevents, hrow.of_base rfl hother⟩
  · intro last
    have hcompare : a.req.kind ≠ .compare := by rcases hk with hk | hk <;> simp [hk]
    have hread : a.req.kind ≠ .read := by rcases hk with hk | hk <;> simp [hk]
    have hreads : ¬ a.req.kind.reads = true := by rcases hk with hk | hk <;> simp [hk, Kind.reads]
    have hwrite : v.completeWrite x = v.completeForRecord x := by rw [State.completeWrite, hu]
    have h := State.completeForRecord_completes v x ha
    rw [← hwrite] at h
    have hrow := h.row
    rw [he] at hrow
    have hcounted : v.counted a x = { a with wordsDone := a.wordsDone + x.count } :=
      State.counted_other hcompare
    have hcompletion : v.lastCompletion (v.counted a x) = ⟨a.req.tag, a.req.kind, a.seq,
        if a.aborting = true then .aborted else .done, a.wordsDone + x.count, none, none⟩ := by
      rw [hcounted, State.lastCompletion_other (by exact hcompare)]
      dsimp only
      rw [if_neg hreads]
    have hwords : (v.completeWrite x).staging.words = s.staging.words :=
      h.words.trans (congrArg (fun w => w.staging.words) (State.storeRequested_other v a.req x hread))
    refine ⟨hwords, hrow.of_base rfl hother, fun hl => ?_, fun hl => ?_⟩
    · rw [← hcompletion]
      exact h.last hl
    · obtain ⟨hpool, howner, hevents⟩ := h.goesOn hl
      have hepoch : (v.completeWrite x).staging.epoch = s.staging.epoch := h.epoch
      have howner : (v.completeWrite x).staging.owner = s.staging.owner := howner
      rw [hcounted] at hpool
      refine ⟨hpool, ?_, hevents⟩
      generalize (v.completeWrite x).staging = b at hwords hepoch howner
      cases b
      cases hs : s.staging
      simp_all

end Sys2Proof.Machine

/-! ROW_OPEN, ROW_SHUT and RENEW (R60, R63, R66, R69, R105, R106). -/

namespace Sys2Proof.Machine

/-! ### The banks that may be shut -/

theorem WriteRecovery.expiredAt_iff {w : WriteRecovery} {n : Nat} :
    w.expiredAt n = true ↔ w ≠ .pending ∧ ∀ p, w = .ends p → p ≤ n := by
  cases w <;> simp [WriteRecovery.expiredAt]

/-- The banks stand in the order of their numbers. -/
theorem bankNumbers_split : ∀ b : Fin 8,
    bankNumbers = bankNumbers.take b.val ++ b :: bankNumbers.drop (b.val + 1) ∧
      ∀ c ∈ bankNumbers.take b.val, c < b := by
  decide

/-- The lowest-numbered bank of a kind. -/
theorem bankNumbers_find? {p : Fin 8 → Bool} {b : Fin 8} (hb : p b = true)
    (hlow : ∀ c : Fin 8, c < b → p c = false) : bankNumbers.find? p = some b := by
  obtain ⟨hsplit, hbefore⟩ := bankNumbers_split b
  rw [List.find?_eq_some_iff_append]
  exact ⟨hb, _, _, hsplit, fun c hc => by simp [hlow c (hbefore c hc)]⟩

section
variable {s : State} {b : Fin 8}

theorem State.canShut_iff : s.canShut b = true ↔ MayShut s b := by
  simp only [State.canShut, Bank.shutAllowed, State.settled, Bool.and_eq_true, decide_eq_true_eq,
    expired_iff, WriteRecovery.expiredAt_iff, MayShut, and_assoc]
  tauto

/-! ### Issue for the job's row -/

theorem State.jobTarget_record {a : Active} {x : Block} (hj : s.sched.job = some .recordBurst)
    (ha : s.pool.active = some a) (hx : a.req.blockAt s.setup.workGeometry a.position = some x) :
    s.jobTarget = some (x.bank, x.row) := by
  have hblock : a.block s.setup.workGeometry = some x := hx
  simp [State.jobTarget, hj, ha, hblock]

theorem State.jobTarget_chunk {j : Nat} (hj : s.sched.job = some (.chunk j)) :
    s.jobTarget = some (bankOf s.setup.workGeometry (s.capture.base.toNat + s.capture.producer),
      rowOf s.setup.workGeometry (s.capture.base.toNat + s.capture.producer)) := by
  simp [State.jobTarget, hj, Capture.chunkAddress]

/-- The job of a record burst or of a chunk shuts no bank but its own (R69). -/
theorem State.shutTarget_ofJob {row : Nat} (hj : s.sched.job = some .recordBurst ∨
      ∃ j, s.sched.job = some (.chunk j)) (ht : s.jobTarget = some (b, row))
    (hc : s.canShut b = true) (hn : (s.bank b).readyFor row = false) : s.shutTarget = some b := by
  rcases hj with hj | ⟨j, hj⟩ <;>
    simp [State.shutTarget, State.shuttingAll, hj, ht, hc, hn]

theorem State.shutTarget_claim (hj : s.sched.job = some (.shutClaim b)) (hc : s.canShut b = true) :
    s.shutTarget = some b := by
  simp [State.shutTarget, hj, hc]

/-- A job that brings every bank to CLOSED shuts the lowest that may be shut (R66). -/
theorem State.shutTarget_all (hall : s.shuttingAll = true) (hc : s.canShut b = true)
    (hlow : ∀ c : Fin 8, c < b → s.canShut c = false) : s.shutTarget = some b := by
  have hclaim : ∀ c : Fin 8, s.sched.job ≠ some (.shutClaim c) := fun c hj => by
    simp [State.shuttingAll, hj] at hall
  unfold State.shutTarget
  split
  · next c hj => exact absurd hj (hclaim c)
  · rw [if_pos hall]
    exact bankNumbers_find? hc hlow

theorem exec_rowOpen {row : Nat} (hlow : s.resetLow = false) (h : s.rowOpenTarget = some (b, row)) :
    exec .rowOpen s = .next (s.openRow b row s.issuePoint) := by
  have hpoint : s.rowOpenAt = some s.issuePoint := by
    rw [State.rowOpenAt, h]
    rfl
  show execRowOpen s = _
  rw [execRowOpen, State.takeAt_high hlow hpoint, h]

theorem exec_rowShut (hlow : s.resetLow = false) (h : s.shutTarget = some b) :
    exec .rowShut s = .next (s.shutRow b s.issuePoint) := by
  have hpoint : s.rowShutAt = some s.issuePoint := by
    rw [State.rowShutAt, h]
    rfl
  show execRowShut s = _
  rw [execRowShut, State.takeAt_high hlow hpoint, h]

/-- Only a shut claim's job ends at its ROW_SHUT (R78). -/
theorem Sched.endShutClaim_other {u : Sched} (h : ∀ c, u.job ≠ some (.shutClaim c)) :
    u.endShutClaim = u := by
  unfold Sched.endShutClaim
  split
  · next c hc => exact absurd hc (h c)
  · rfl

theorem Sched.endShutClaim_claim {u : Sched} {c : Fin 8} (h : u.job = some (.shutClaim c)) :
    u.endShutClaim = { u with job := none } := by
  rw [Sched.endShutClaim, h]

end

/-- Settles O50: the job's target, and then its issue. -/
theorem rowsAreOpenedAndShutForTheJob : Obligations.RowsAreOpenedAndShutForTheJob := by
  intro s b hlow n g ended wanted shut
  have target {row : Nat} (hw : wanted row) : s.jobTarget = some (b, row) ∧
      (s.sched.job = some .recordBurst ∨ ∃ j, s.sched.job = some (.chunk j)) := by
    rcases hw with ⟨a, x, hj, ha, hx, rfl, rfl⟩ | ⟨j, hj, rfl, rfl⟩
    · exact ⟨State.jobTarget_record hj ha hx, Or.inl hj⟩
    · exact ⟨State.jobTarget_chunk hj, Or.inr ⟨j, hj⟩⟩
  have shuts {job : Option Job} (ht : s.shutTarget = some b)
      (hs : s.sched.endShutClaim = { s.sched with job := job }) : exec .rowShut s = shut job := by
    rw [exec_rowShut hlow ht, State.shutRow, hs]
    rfl
  refine ⟨fun row hw hclosed h1 h2 h3 => ?_, fun row hw hmay hrow => ?_, fun hj hmay => ?_,
    fun hj hmay hfirst => ?_⟩
  · have hopen : s.rowOpenTarget = some (b, row) := by
      have hspacing : expired s.table.openSpacing s.now = true := expired_iff.2 h1
      have hrenew : s.renewOver = true := expired_iff.2 h2
      have hsettled : s.settled = true := expired_iff.2 h3
      simp [State.rowOpenTarget, (target hw).1, hclosed, hspacing, hrenew, hsettled]
    rw [exec_rowOpen hlow hopen]
    rfl
  · obtain ⟨htarget, hj⟩ := target hw
    have hnot : (s.bank b).readyFor row = false := by
      rw [← Bool.not_eq_true, Bank.readyFor_iff]
      rintro ⟨-, ho, hm⟩
      exact hrow.elim (absurd ho) fun h => by simp [hm] at h
    refine shuts (State.shutTarget_ofJob hj htarget (State.canShut_iff.2 hmay) hnot)
      (Sched.endShutClaim_other fun c hc => ?_)
    rcases hj with hj | ⟨j, hj⟩ <;> cases hj.symm.trans hc
  · exact shuts (State.shutTarget_claim hj (State.canShut_iff.2 hmay)) (Sched.endShutClaim_claim hj)
  · have hall : s.shuttingAll = true := by
      rcases hj with hj | hj | ⟨hj, ⟨d, hp⟩ | ⟨w, hp⟩⟩ <;> simp [State.shuttingAll, *]
    refine shuts (State.shutTarget_all hall (State.canShut_iff.2 hmay) fun c hc => ?_)
      (Sched.endShutClaim_other fun c hc => ?_)
    · rw [← Bool.not_eq_true, State.canShut_iff]
      exact hfirst c hc
    · rcases hj with hj | hj | ⟨hj, -⟩ <;> cases hj.symm.trans hc

/-! ### RENEW -/

section
variable {s : State}

/-- What RENEW does, apart from what follows for its job (R12, R105). -/
def State.renewed (s : State) : State :=
  { s with
    now := s.issuePoint
    port := some ⟨.renew, s.issuePoint⟩
    ctrl.dozeTimer := DozeTimerAfter s s.issuePoint
    refresh.balance := s.refresh.balance - 1
    table.renewWindow := some (s.issuePoint + s.setup.working.get 6) }

theorem exec_renew (hlow : s.resetLow = false) (h : s.mayRenew = true) :
    exec .renew s = .next s.renewed.afterRenew := by
  have hpoint : s.renewAt = some s.issuePoint := if_pos h
  show execRenew s = _
  rw [execRenew, State.takeAt_high hlow hpoint]
  rfl

theorem State.mayRenew_of (hj : s.renewingJob = true) (hc : s.allClosed = true)
    (hr : s.table.renewWindow = none) (hs : s.table.modeSettle = none) (hb : -8 < s.refresh.balance)
    (ha : s.ctrl.arrayState ∉ [ArrayState.dozing, .retaining]) : s.mayRenew = true := by
  have hawake : s.ctrl.arrayState ≠ .dozing ∧ s.ctrl.arrayState ≠ .retaining := by simpa using ha
  simp [State.mayRenew, hj, hc, State.renewOver, hr, State.settled, hs, expired, hb, hawake]

/-- An urgent group goes on while the balance is above 0, an opportunistic one ends (R108, R109). -/
theorem State.afterRenew_group (hj : s.sched.job = some .urgentRefresh ∨ s.sched.job = some .pullIn) :
    s.afterRenew = { s with
      sched.job :=
        if s.sched.job = some .urgentRefresh ∧ 0 < s.refresh.balance then some .urgentRefresh
        else none } := by
  rcases hj with hj | hj
  · by_cases hb : 0 < s.refresh.balance
    · simp only [State.afterRenew, hj, hb, and_self, if_true]
      rw [← hj]
    · simp only [State.afterRenew, hj, hb, and_false, if_false]
  · simp [State.afterRenew, hj]

/-- A procedure's work goes on when the balance is not above 0 (R149, R154, R158, R172). -/
theorem State.afterRenew_procedure {served : Progress} (hj : s.sched.job = some .procedure)
    (hp : (s.ctrl.progress = .renewing .setMode ∧ served = .due .setMode) ∨
      (s.ctrl.progress = .renewing .align ∧ served = .renewed) ∨
      (s.ctrl.progress = .renewing .retain ∧ served = .due .retain) ∨
      (s.ctrl.progress = .suspendRenew ∧ served = .suspendSet)) :
    s.afterRenew = { s with ctrl.progress :=
      if 0 < s.refresh.balance then s.ctrl.progress else served } := by
  by_cases hb : 0 < s.refresh.balance
  · simp only [State.afterRenew, hj, hb, if_true]
  · rcases hp with ⟨hp, rfl⟩ | ⟨hp, rfl⟩ | ⟨hp, rfl⟩ | ⟨hp, rfl⟩ <;>
      simp [State.afterRenew, hj, hb, hp]

/-- A RENEW lowers the balance and counts no violation (R105). -/
theorem exec_renew_refresh {t : State} (hlow : s.resetLow = false) (h : s.mayRenew = true)
    (ht : exec .renew s = .next t) : t.resetLow = false ∧
      t.refresh = { s.refresh with balance := s.refresh.balance - 1 } := by
  rw [exec_renew hlow h] at ht
  cases ht
  simp [State.renewed, hlow]

/-- An expiry raises the balance below +8, and counts a violation at it (R104). -/
theorem exec_refreshPeriodExpiry_refresh {t : State} (hlow : s.resetLow = false)
    (htimer : s.refresh.timer.isSome = true) (ht : exec .refreshPeriodExpiry s = .next t) :
    t.resetLow = false ∧
    (s.refresh.balance < 8 → t.refresh.balance = s.refresh.balance + 1 ∧
      t.refresh.violations = s.refresh.violations) ∧
    (¬ s.refresh.balance < 8 → t.refresh.balance = s.refresh.balance ∧
      t.refresh.violations = min 255 (s.refresh.violations + 1)) := by
  obtain ⟨point, hpoint⟩ := Option.isSome_iff_exists.1 htimer
  rw [exec_refreshPeriodExpiry hlow hpoint] at ht
  cases ht
  refine ⟨?_, fun hb => ?_, fun hb => ?_⟩
  · simp [State.nextRefreshPeriod, State.atAC, hlow]
  · simp [State.nextRefreshPeriod, State.atAC, State.countPeriod, hb]
  · simp [State.nextRefreshPeriod, State.atAC, State.countPeriod, State.loseContents, hb]

end

/-- Settles O51: the group's RENEW, the procedure's, and the two orders with an expiry. -/
theorem renewLowersTheBalance : Obligations.RenewLowersTheBalance := by
  refine ⟨fun s hlow hj hc hr hs hb ha => ?_, fun s served hlow hj hp hc hr hs hb ha => ?_,
    fun s a b c d hlow hle hmay htimer hsa hab hsc hcmay hcd => ?_⟩
  · intro n
    have hjob : s.renewingJob = true := by
      rcases hj with hj | hj <;> simp [State.renewingJob, hj]
    rw [exec_renew hlow (State.mayRenew_of hjob hc hr hs hb ha),
      State.afterRenew_group (s := s.renewed) hj]
    refine congrArg Host.Outcome.next ?_
    have hends : (if s.sched.job = some .urgentRefresh ∧ 0 < s.refresh.balance - 1 then
        some Job.urgentRefresh else none) = if s.sched.job = some .urgentRefresh ∧ 1 < s.refresh.balance
        then some .urgentRefresh else none := if_congr (and_congr_right fun _ => by omega) rfl rfl
    rw [← hends]
    rfl
  · intro n
    have hjob : s.renewingJob = true := by
      rcases hp with ⟨hp, -⟩ | ⟨hp, -⟩ | ⟨hp, -⟩ | ⟨hp, -⟩ <;> simp [State.renewingJob, hj, hp]
    rw [exec_renew hlow (State.mayRenew_of hjob hc hr hs hb ha),
      State.afterRenew_procedure (s := s.renewed) hj hp]
    refine congrArg Host.Outcome.next ?_
    have hserved : (if 0 < s.refresh.balance - 1 then s.ctrl.progress else served) =
        if 1 < s.refresh.balance then s.ctrl.progress else served := if_congr (by omega) rfl rfl
    rw [← hserved]
    rfl
  · obtain ⟨halow, harefresh⟩ := exec_renew_refresh hlow hmay hsa
    obtain ⟨hclow, hcbelow, hcfull⟩ := exec_refreshPeriodExpiry_refresh hlow htimer hsc
    obtain ⟨-, hbbelow, -⟩ := exec_refreshPeriodExpiry_refresh halow (by rw [harefresh]; exact htimer) hab
    obtain ⟨-, hdrefresh⟩ := exec_renew_refresh hclow hcmay hcd
    rw [harefresh] at hbbelow
    rw [hdrefresh]
    obtain ⟨hb, hv⟩ := hbbelow (by dsimp only; omega)
    refine ⟨⟨by rw [hb]; dsimp only; omega, hv⟩, fun h => ?_, fun h => ?_⟩
    · obtain ⟨hb, hv⟩ := hcbelow h
      exact ⟨by rw [hb]; dsimp only; omega, hv⟩
    · obtain ⟨hb, hv⟩ := hcfull (by omega)
      exact ⟨by rw [hb]; dsimp only; omega, hv⟩

end Sys2Proof.Machine

/-! The arbiter's order and its grants (R78 to R83, R89, R94, R101, R162). -/

namespace Sys2Proof.Machine

section
variable {s : State}

/-! ### The order of the claims -/

theorem Capture.urgentDemand_iff {c : Capture} :
    c.urgentDemand = true ↔ c.demand = true ∧ 128 ≤ c.fifo.length := by
  simp [Capture.urgentDemand]

theorem State.urgentClaim_iff :
    s.urgentClaim = true ↔ (s.refresh.urgentLevel : Int) ≤ s.refresh.balance := decide_eq_true_iff

theorem State.drainGrant_isSome : s.drainGrant.isSome =
    (s.arbiterOpen && !s.urgentClaim && !s.capture.urgentDemand &&
      (s.drainClaim && s.pool.active.isNone)) := by
  unfold State.drainGrant State.drainClaim
  split
  · split <;> simp_all [Option.isSome_iff_ne_none]
  · simp

theorem State.shutGrant_isSome : s.shutGrant.isSome =
    (s.arbiterOpen && !s.urgentClaim && !s.capture.urgentDemand &&
      !(s.drainClaim && s.pool.active.isNone) && s.shutClaim.isSome) := by
  unfold State.shutGrant
  split <;> simp_all

/-- With the arbiter open no restore is due (R162). -/
theorem State.restoreGrant_of_open (h : s.arbiterOpen = true) : s.restoreGrant = false := by
  simp only [State.arbiterOpen, Bool.and_eq_true, Bool.not_eq_true'] at h
  simp [State.restoreGrant, h.1.2]

/-- A burst is claimed for an ACTIVE record (R79). -/
theorem State.active_of_burstClaim (h : s.burstClaim = true) : s.pool.active.isNone = false := by
  unfold State.burstClaim at h
  split at h
  · cases h
  · next a ha => simp [ha]

theorem State.grantsDue_closed (h : s.arbiterOpen = false) :
    s.grantsDue = if s.restoreGrant then [.restoreGrant] else [] := by
  simp [State.grantsDue, dueIf, State.drainGrant_isSome, State.shutGrant_isSome,
    State.urgentChunkGrant, State.normalChunkGrant, State.burstGrant, State.selectionGrant,
    State.pullInGrant, h]

/-- The grants of an open arbiter, by the claims (R80). -/
theorem State.grantsDue_open (h : s.arbiterOpen = true) : s.grantsDue =
    if s.urgentClaim = true then [.urgentRefreshGrant]
    else if s.capture.urgentDemand = true then [.captureChunkGrant]
    else if (s.drainClaim && s.pool.active.isNone) = true then [.drainGrant]
    else if s.shutClaim.isSome = true then [.shutClaimGrant]
    else if s.burstClaim = true then [.recordBurstGrant]
    else if (s.capture.demand && s.hostWorkMayRun) = true then [.captureChunkGrant]
    else if (s.pool.active.isNone && !s.pool.queued.isEmpty && s.hostWorkMayRun) = true then [.selection]
    else if (s.aboveFloor && s.hostWorkMayRun) = true then [.opportunisticRefreshGrant]
    else [] := by
  have hrestore := State.restoreGrant_of_open h
  have hdrain : s.drainClaim = true → s.hostWorkMayRun = false := fun hd => by
    simp [State.hostWorkMayRun, hd]
  have hdue : s.grantsDue = dueIf .urgentRefreshGrant s.urgentClaim ++
      dueIf .captureChunkGrant (s.urgentChunkGrant || s.normalChunkGrant) ++
      dueIf .drainGrant s.drainGrant.isSome ++ dueIf .shutClaimGrant s.shutGrant.isSome ++
      dueIf .recordBurstGrant s.burstGrant ++ dueIf .selection s.selectionGrant ++
      dueIf .opportunisticRefreshGrant s.pullInGrant := by
    simp [State.grantsDue, h, hrestore, dueIf]
  rw [hdue, State.drainGrant_isSome, State.shutGrant_isSome, State.urgentChunkGrant,
    State.normalChunkGrant, State.burstGrant, State.selectionGrant, State.pullInGrant,
    State.selectionClaim, h]
  rcases Bool.eq_false_or_eq_true s.urgentClaim with hu | hu
  · simp [dueIf, hu]
  rcases Bool.eq_false_or_eq_true s.capture.urgentDemand with hc | hc
  · simp [dueIf, hu, hc, (Capture.urgentDemand_iff.1 hc).1]
  rcases Bool.eq_false_or_eq_true (s.drainClaim && s.pool.active.isNone) with hd | hd
  · have hclaims := Bool.and_eq_true_iff.1 hd
    have hburst : s.burstClaim = false := Bool.eq_false_iff.2 fun hb => by
      simpa [State.active_of_burstClaim hb] using hclaims.2
    simp [dueIf, hu, hc, hclaims, hburst, hdrain hclaims.1]
  rcases Bool.eq_false_or_eq_true s.shutClaim.isSome with hs | hs
  · have hnone : s.shutClaim.isNone = false := by simpa using hs
    simp [dueIf, hu, hc, hd, hs, hnone]
  have hnone : s.shutClaim.isNone = true := by simpa using hs
  rcases Bool.eq_false_or_eq_true s.burstClaim with hb | hb
  · simp [dueIf, hu, hc, hs, hnone, hb, State.active_of_burstClaim hb]
  rcases Bool.eq_false_or_eq_true s.capture.demand with hdem | hdem
  · rcases Bool.eq_false_or_eq_true s.hostWorkMayRun with hh | hh <;>
      simp [dueIf, hu, hc, hd, hs, hnone, hb, hdem, hh]
  generalize (s.pool.active.isNone && !s.pool.queued.isEmpty && s.hostWorkMayRun) = selects
  cases selects with
  | true => simp [dueIf, hu, hc, hd, hs, hnone, hb, hdem]
  | false => simp [dueIf, hu, hc, hd, hs, hnone, hb, hdem, and_comm]

end

/-- Settles O47: the claims in their order. -/
theorem arbiterGrantsTheFirstClaimOfTheOrder : Obligations.ArbiterGrantsTheFirstClaimOfTheOrder := by
  intro s
  refine ⟨fun h => ?_, State.grantsDue_closed⟩
  rw [State.grantsDue_open h]
  simp only [State.urgentClaim_iff, Capture.urgentDemand_iff, Bool.and_eq_true,
    Option.isNone_iff_eq_none, Option.isSome_iff_ne_none, Bool.not_eq_true', List.isEmpty_eq_false_iff,
    State.aboveFloor, decide_eq_true_eq, and_assoc]

/-! ### What stands when the path is free -/

section
variable {s : State}

theorem State.arbiterOpen_iff : s.arbiterOpen = true ↔ s.sched.job = none ∧
    s.bus.softPending = false ∧ s.ctrl.restoreDue = false ∧
    s.ctrl.arrayState ∈ [ArrayState.ready, .setting, .aligning] := by
  simp [State.arbiterOpen, and_assoc]

/-- The claims above the shut claims, on a free path. -/
theorem PathFree.claims (h : PathFree s) : s.resetLow = false ∧ s.arbiterOpen = true ∧
    s.urgentClaim = false ∧ s.capture.urgentDemand = false := by
  obtain ⟨hlow, hj, hp, hr, ha, hb, hc⟩ := h
  exact ⟨hlow, State.arbiterOpen_iff.2 ⟨hj, hp, hr, ha⟩, decide_eq_false (Int.not_le.2 hb),
    Bool.eq_false_iff.2 (mt Capture.urgentDemand_iff.1 hc)⟩

theorem shutClaimed_iff {b : Fin 8} :
    ((s.bank b).mark && s.canShut b) = true ↔ ShutClaimed s b := by
  rw [Bool.and_eq_true, State.canShut_iff]
  exact Iff.rfl

theorem State.shutClaim_none (h : ∀ b, ¬ ShutClaimed s b) : s.shutClaim = none := by
  rw [State.shutClaim, List.find?_eq_none]
  exact fun b _ hb => h b (shutClaimed_iff.1 hb)

theorem State.shutClaim_lowest {b : Fin 8} (hb : ShutClaimed s b)
    (hlow : ∀ c, c < b → ¬ ShutClaimed s c) : s.shutClaim = some b :=
  bankNumbers_find? (p := fun b => (s.bank b).mark && s.canShut b) (shutClaimed_iff.2 hb)
    fun c hc => Bool.eq_false_iff.2 (mt shutClaimed_iff.1 (hlow c hc))

theorem State.hostWorkMayRun_of (ha : s.ctrl.arrayState = .ready) (hd : s.drainClaim = false) :
    s.hostWorkMayRun = true := by
  simp [State.hostWorkMayRun, ha, hd]

theorem State.burstClaim_none (ha : s.pool.active = none) : s.burstClaim = false := by
  simp [State.burstClaim, ha]

/-! ### The grants -/

theorem exec_urgentRefreshGrant (hlow : s.resetLow = false) (ho : s.arbiterOpen = true)
    (hu : s.urgentClaim = true) : exec .urgentRefreshGrant s =
      .next { s with sched.job := some .urgentRefresh, pool := s.pool.pause } :=
  (State.take_high hlow).trans (congrArg _ (if_pos (by simp [ho, hu])))

theorem exec_captureChunkGrant_urgent (hlow : s.resetLow = false) (h : s.urgentChunkGrant = true) :
    exec .captureChunkGrant s =
      .next { s with sched.job := some (.chunk 0), pool := s.pool.pause } :=
  (State.take_high hlow).trans (congrArg _ (if_pos h))

theorem exec_captureChunkGrant_normal (hlow : s.resetLow = false) (hu : s.urgentChunkGrant = false)
    (h : s.normalChunkGrant = true) :
    exec .captureChunkGrant s = .next { s with sched.job := some (.chunk 0) } :=
  (State.take_high hlow).trans (congrArg _ ((if_neg (by simp [hu])).trans (if_pos h)))

/-- The drain on a free path (R82). -/
theorem exec_drainGrant {d : Drain} (h : PathFree s) (hp : s.ctrl.progress = .draining d)
    (ha : s.pool.active = none) : exec .drainGrant s = .next (State.proceed
      { s with sched.job := some .procedure, ctrl.progress := .shutAll d }) := by
  obtain ⟨hlow, ho, hu, hc⟩ := h.claims
  have hgrant : s.drainGrant = some d := by simp [State.drainGrant, hp, ho, hu, hc, ha]
  show s.take _ = _
  rw [State.take_high hlow, hgrant]
  rfl

theorem exec_shutClaimGrant {b : Fin 8} (hlow : s.resetLow = false) (h : s.shutGrant = some b) :
    exec .shutClaimGrant s = .next { s with sched.job := some (.shutClaim b) } := by
  show s.take _ = _
  rw [State.take_high hlow, h]
  rfl

/-- A record burst goes on where no read is held (R89). -/
theorem State.endHeldBurst_stays
    (h : s.holdInForce = false ∨ ∀ a, s.pool.active = some a → a.req.kind.reads = false) :
    s.endHeldBurst = s := by
  rcases s.endHeldBurst_spec with e | ⟨hj, hhold, e⟩
  · exact e
  · rcases h with h | h
    · rw [h] at hhold
      cases hhold
    · cases ha : s.pool.active with
      | none => simp [State.endHeldBurst, hj, ha]
      | some a =>
        have hreads := h a ha
        cases hx : a.block s.setup.workGeometry <;>
          simp [State.endHeldBurst, hj, ha, hx, hreads]

theorem Kind.reads_eq_false {k : Kind} (h : k = .write ∨ k = .fill) : k.reads = false := by
  rcases h with rfl | rfl <;> rfl

theorem State.holdInForce_of_none (h : s.ctrl.readHold = none) : s.holdInForce = false := by
  simp [State.holdInForce, h, expired]

theorem State.burstClaim_of {a : Active} (ha : s.pool.active = some a)
    (hlt : a.position < a.req.length) (hab : a.aborting = false)
    (hk : s.ctrl.readHold = none ∨ a.req.kind = .write ∨ a.req.kind = .fill) :
    s.burstClaim = true := by
  rcases hk with hk | hk
  · simp [State.burstClaim, ha, Active.hasBlock, hlt, hab, State.holdInForce_of_none hk]
  · simp [State.burstClaim, ha, Active.hasBlock, hlt, hab, Kind.reads_eq_false hk]

theorem exec_recordBurstGrant {a : Active} (hlow : s.resetLow = false) (h : s.burstGrant = true)
    (ha : s.pool.active = some a)
    (hk : s.ctrl.readHold = none ∨ a.req.kind = .write ∨ a.req.kind = .fill) :
    exec .recordBurstGrant s = .next { s with
      sched.job := some .recordBurst, pool.active := some { a with paused := false } } := by
  have hresume : s.pool.resume = { s.pool with active := some { a with paused := false } } := by
    rw [Pool.resume, ha]
    rfl
  show s.take _ = _
  rw [State.take_high hlow, if_pos h, hresume]
  refine congrArg _ (State.endHeldBurst_stays (hk.imp State.holdInForce_of_none fun hk b hb => ?_))
  cases hb
  exact Kind.reads_eq_false hk

theorem exec_opportunisticRefreshGrant (hlow : s.resetLow = false) (h : s.pullInGrant = true) :
    exec .opportunisticRefreshGrant s = .next { s with sched.job := some .pullIn } :=
  (State.take_high hlow).trans (congrArg _ (if_pos h))

theorem exec_restoreGrant (hlow : s.resetLow = false) (h : s.restoreGrant = true) :
    exec .restoreGrant s = .next (State.proceed { s with
      sched.job := some .procedure
      ctrl.restoreDue := false
      ctrl.progress := if s.ctrl.inAlignMode = true then .restoreLoad
        else .restoreShut s.ctrl.setModeLoaded }) :=
  (State.take_high hlow).trans (congrArg _ (if_pos h))

/-- The SET_MODE that is restored had issued a MODE_LOAD (R162). -/
theorem Ctrl.setModeLoaded_iff {c : Ctrl} :
    c.setModeLoaded = true ↔ c.arrayState = .setting ∧ c.progress = .stopped true := by
  unfold Ctrl.setModeLoaded
  split <;> simp_all

end

/-- Settles O48: each grant's claim in its place in the order, and then the job's beginning. -/
theorem grantsGiveThePathToTheirJob : Obligations.GrantsGiveThePathToTheirJob := by
  intro s free loaded pausing
  have opened (h : free) : s.arbiterOpen = true := State.arbiterOpen_iff.2 h.2
  refine ⟨fun h hu => ?_, fun h hu hd hl => ?_, fun h ha hdr hd hs hb => ?_, fun d h hp ha => ?_,
    fun b h hdr hb hfirst => ?_, fun a h hs ha hlt hab hk => ?_, fun h ha hdr hd hs hact hq hf => ?_,
    fun hlow hr hpend hj => ?_⟩
  · exact exec_urgentRefreshGrant h.1 (opened h) (State.urgentClaim_iff.2 hu)
  · have hurgent : s.urgentClaim = false := decide_eq_false (Int.not_le.2 hu)
    have hdemand : s.capture.urgentDemand = true := Capture.urgentDemand_iff.2 ⟨hd, hl⟩
    exact exec_captureChunkGrant_urgent h.1 (by simp [State.urgentChunkGrant, opened h, hurgent, hdemand])
  · obtain ⟨hlow, ho, hu, hc⟩ := h.claims
    exact exec_captureChunkGrant_normal hlow (by simp [State.urgentChunkGrant, hc])
      (by simp [State.normalChunkGrant, ho, hd, hc, hu, hb, State.hostWorkMayRun_of ha hdr,
        State.shutClaim_none hs])
  · obtain ⟨hlow, ho, hu, hc⟩ := h.claims
    have hexec := exec_drainGrant h hp ha
    refine ⟨fun hopen => ?_, fun hclosed hl => ?_, fun hclosed hset hl => ?_⟩
    · exact hexec.trans (congrArg _ (State.proceed_open _ hopen))
    · exact hexec.trans (congrArg _ (State.proceed_shutAll_work rfl hclosed (Or.inl hu) hl))
    · intro ended allEnded
      subst hset
      have hover : allEnded ↔ s.renewOver = true ∧ s.settled = true ∧ s.modeHoldOver = true :=
        (and_congr expired_iff (and_congr expired_iff expired_iff)).symm
      exact ⟨fun hall => hexec.trans (congrArg _
          (State.proceed_shutAll_ends rfl hclosed hu hl (hover.1 hall))),
        fun hall => hexec.trans (congrArg _
          (State.proceed_shutAll_waits rfl hclosed hu (mt hover.2 hall)))⟩
  · obtain ⟨hlow, ho, hu, hc⟩ := h.claims
    have hdrain : (s.drainClaim && s.pool.active.isNone) = false := by
      rw [← Bool.not_eq_true, Bool.and_eq_true, Option.isNone_iff_eq_none]
      exact hdr
    refine exec_shutClaimGrant hlow ?_
    rw [State.shutGrant, ho, hu, hc, hdrain]
    exact State.shutClaim_lowest hb hfirst
  · obtain ⟨hlow, ho, hu, hc⟩ := h.claims
    have hgrant : s.burstGrant = true := by
      simp [State.burstGrant, ho, hu, hc, State.burstClaim_of ha hlt hab hk, State.shutClaim_none hs]
    exact exec_recordBurstGrant hlow hgrant ha hk
  · obtain ⟨hlow, ho, hu, hc⟩ := h.claims
    have hfloor : s.aboveFloor = true := decide_eq_true hf
    refine exec_opportunisticRefreshGrant hlow ?_
    simp [State.pullInGrant, ho, hu, hd, hfloor, State.hostWorkMayRun_of ha hdr, State.shutClaim_none hs,
      State.burstClaim_none hact, State.selectionClaim, hq]
  · have hgrant : s.restoreGrant = true := by simp [State.restoreGrant, hr, hpend, hj]
    have hexec := exec_restoreGrant hlow hgrant
    have hloaded : s.ctrl.setModeLoaded = decide loaded := by
      rw [Bool.eq_iff_iff, Ctrl.setModeLoaded_iff, decide_eq_true_iff]
    rw [hloaded] at hexec
    refine ⟨fun hal => ?_, fun hal hopen => ?_, fun p hal hclosed hl hsettle hlt => ?_,
      fun hal hclosed hw => ?_⟩
    · rw [if_pos hal] at hexec
      exact hexec.trans (congrArg _ (State.proceed_stays (Or.inl (by simp))))
    · rw [if_neg (by simp [hal])] at hexec
      exact hexec.trans (congrArg _ (State.proceed_stays (Or.inr hopen)))
    · rw [if_neg (by simp [hal]), decide_eq_true hl] at hexec
      exact hexec.trans (congrArg _ (State.proceed_restore_waits rfl hclosed
        (expired_eq_false_iff.2 ⟨p, hsettle, hlt⟩)))
    · rw [if_neg (by simp [hal])] at hexec
      exact hexec.trans (congrArg _ (State.proceed_restore_ends rfl hclosed
        (hw.imp expired_iff.2 decide_eq_false)))

end Sys2Proof.Machine

/-! SELECTION (R84 to R86, R88). -/

namespace Sys2Proof.Machine

/-! ### The eligible records -/

/-- A hazard between an earlier and a later record (R84). -/
theorem Request.conflicts_iff (a b : Request) : a.conflicts b = true ↔
    a.address ≤ b.address + b.length - 1 ∧ b.address ≤ a.address + a.length - 1 ∧
      ((a.kind = .write ∨ a.kind = .fill) ∨ (b.kind = .write ∨ b.kind = .fill)) := by
  have writes (k : Kind) : (!k.reads) = true ↔ k = .write ∨ k = .fill := by
    cases k <;> simp [Kind.reads]
  rw [Request.conflicts, Bool.and_eq_true, Bool.or_eq_true, writes, writes, Request.overlaps,
    decide_eq_true_iff, and_assoc]

theorem blockedBy_eq_false_iff {earlier : List Queued} {q : Queued} :
    blockedBy earlier q = false ↔ ∀ e, e ∈ earlier → ¬ e.req.conflicts q.req = true := by
  simp [blockedBy]

/-- The record stands in the queue before no record that blocks it: its eligibility, read off a queue in
which each record stands once (R84). -/
def standsFree (l : List Queued) (q : Queued) : Bool :=
  !blockedBy (l.takeWhile fun e => decide (e ≠ q)) q

section
variable {l before after : List Queued} {q : Queued}

/-- What stands before a record that stands once. -/
theorem takeWhile_split (hl : (before ++ q :: after).Nodup) :
    (before ++ q :: after).takeWhile (fun e => decide (e ≠ q)) = before := by
  have hbefore : ∀ e ∈ before, decide (e ≠ q) = true := fun e he => by
    have := (List.nodup_append.1 hl).2.2 e he q List.mem_cons_self
    exact decide_eq_true this
  rw [List.takeWhile_append_of_pos hbefore, List.takeWhile_cons_of_neg (by simp), List.append_nil]

theorem standsFree_split (hl : (before ++ q :: after).Nodup) :
    standsFree (before ++ q :: after) q = !blockedBy before q := by
  rw [standsFree, takeWhile_split hl]

/-- The eligible records are those of the queue that stand free (R84). -/
theorem eligibleFrom_eq (l : List Queued) : ∀ earlier : List Queued, (earlier ++ l).Nodup →
    eligibleFrom earlier l = l.filter (standsFree (earlier ++ l)) := by
  induction l with
  | nil => exact fun _ _ => rfl
  | cons q l ih =>
    intro earlier hl
    have hfree := standsFree_split hl
    have hsplit : earlier ++ q :: l = (earlier ++ [q]) ++ l := by simp
    have htail := ih (earlier ++ [q]) (hsplit ▸ hl)
    rw [← hsplit] at htail
    unfold eligibleFrom
    rw [List.filter_cons, hfree, htail]
    cases blockedBy earlier q <;> rfl

/-- A record passed over, by whether it stands free (R86). -/
def aged (l : List Queued) (e : Queued) : Queued :=
  if standsFree l e = true then { e with age := min 15 (e.age + 1) } else e

/-- The queue after a selection: the chosen record is out, the eligible ones have aged (R86). -/
theorem passOver_eq (q : Queued) (l : List Queued) : ∀ earlier : List Queued, (earlier ++ l).Nodup →
    passOver q earlier l =
      (l.filter fun e => decide (e ≠ q)).map (aged (earlier ++ l)) := by
  induction l with
  | nil => exact fun _ _ => rfl
  | cons e l ih =>
    intro earlier hl
    have hfree := standsFree_split hl
    have hsplit : earlier ++ e :: l = (earlier ++ [e]) ++ l := by simp
    have htail := ih (earlier ++ [e]) (hsplit ▸ hl)
    rw [← hsplit] at htail
    unfold passOver
    by_cases h : e = q
    · rw [if_pos h, htail, List.filter_cons_of_neg (by simpa using h)]
    · rw [if_neg h, htail, List.filter_cons_of_pos (by simpa using h), List.map_cons, aged, hfree]
      cases blockedBy earlier e <;> rfl

/-- The first of the free records with a property is before no other of them with it. -/
theorem find?_free_split {p : Queued → Bool} (hl : l.Nodup) (hl' : l = before ++ q :: after)
    (hq : (l.filter (standsFree l)).find? p = some q) :
    p q = true ∧ ∀ e, e ∈ before → standsFree l e = true → ¬ p e = true := by
  subst hl'
  rw [List.find?_filter] at hq
  obtain ⟨hpq, first, rest, hsplit, hfirst⟩ := List.find?_eq_some_iff_append.1 hq
  have hbefore : before = first := by
    have h1 := takeWhile_split hl
    rw [hsplit] at hl h1
    rw [← h1, takeWhile_split hl]
  subst hbefore
  simp only [decide_eq_true_eq] at hpq
  refine ⟨hpq.2, fun e he hfree hp => ?_⟩
  simpa [hfree, hp] using hfirst e he

/-- A record of the queue is eligible when it stands free (R84). -/
theorem standsFree_iff {e : Queued} (hl : l.Nodup) (he : e ∈ l) : standsFree l e = true ↔
    ∃ before after, l = before ++ e :: after ∧ ∀ x, x ∈ before → ¬ x.req.conflicts e.req = true := by
  constructor
  · intro hfree
    obtain ⟨before, after, rfl⟩ := List.append_of_mem he
    rw [standsFree_split hl, Bool.not_eq_true', blockedBy_eq_false_iff] at hfree
    exact ⟨before, after, rfl, hfree⟩
  · rintro ⟨before, after, rfl, hfree⟩
    rw [standsFree_split hl, Bool.not_eq_true', blockedBy_eq_false_iff]
    exact hfree

theorem filter_ne_split (hl : (before ++ q :: after).Nodup) :
    (before ++ q :: after).filter (fun e => decide (e ≠ q)) = before ++ after := by
  obtain ⟨-, hafter, hdisjoint⟩ := List.nodup_append.1 hl
  have hbefore : ∀ e ∈ before, decide (e ≠ q) = true := fun e he =>
    decide_eq_true (hdisjoint e he q List.mem_cons_self)
  have hrest : ∀ e ∈ after, decide (e ≠ q) = true := fun e he =>
    decide_eq_true fun h => (List.nodup_cons.1 hafter).1 (h ▸ he)
  rw [List.filter_append, List.filter_cons_of_neg (by simp), List.filter_eq_self.2 hbefore,
    List.filter_eq_self.2 hrest]

end

/-! ### The choice -/

section
variable {s : State} {l : List Queued}

theorem State.rowHit_iff {q : Queued} : s.rowHit q = true ↔
    let e := s.bank (bankOf s.setup.workGeometry q.req.address)
    (e.state = .opening ∨ e.state = .opened) ∧
      e.openRow = some (rowOf s.setup.workGeometry q.req.address) :=
  decide_eq_true_iff

theorem find?_none_of {p : Queued → Bool} (h : ¬ ∃ e, e ∈ l ∧ p e = true) : l.find? p = none := by
  simpa using h

theorem find?_some_of {p : Queued → Bool} (h : ∃ e, e ∈ l ∧ p e = true) : ∃ q, l.find? p = some q := by
  rw [← Option.isSome_iff_exists, List.find?_isSome]
  exact h

/-- A record that is old enough is chosen first (R85). -/
theorem State.chooseFrom_old (h : ∃ e, e ∈ l ∧ decide (s.sched.ageLimit ≤ e.age) = true) :
    s.chooseFrom l = l.find? fun e => decide (s.sched.ageLimit ≤ e.age) := by
  obtain ⟨q, hq⟩ := find?_some_of h
  rw [State.chooseFrom, hq]

/-- In a group a row hit is chosen first (R85). -/
theorem State.chooseInGroup_hit (h : ∃ e, e ∈ l ∧ s.rowHit e = true) :
    s.chooseInGroup l = l.find? s.rowHit := by
  obtain ⟨q, hq⟩ := find?_some_of h
  simp [State.chooseInGroup, hq]

theorem State.chooseInGroup_first (h : ¬ ∃ e, e ∈ l ∧ s.rowHit e = true) :
    s.chooseInGroup l = l.head? := by
  have hq : l.find? (fun e => s.rowHit e) = none := find?_none_of h
  rw [State.chooseInGroup, hq]

/-- With none old enough the URGENT records are chosen before the others (R85). -/
theorem State.chooseFrom_urgent (h : ¬ ∃ e, e ∈ l ∧ decide (s.sched.ageLimit ≤ e.age) = true)
    (hu : ∃ e, e ∈ l ∧ e.req.urgent = true) :
    s.chooseFrom l = s.chooseInGroup (l.filter fun e => e.req.urgent) := by
  have hany : (l.any fun e => e.req.urgent) = true := List.any_eq_true.2 hu
  rw [State.chooseFrom, find?_none_of h]
  exact if_pos hany

theorem State.chooseFrom_normal (h : ¬ ∃ e, e ∈ l ∧ decide (s.sched.ageLimit ≤ e.age) = true)
    (hu : ¬ ∃ e, e ∈ l ∧ e.req.urgent = true) : s.chooseFrom l = s.chooseInGroup l := by
  have hany : ¬ (l.any fun e => e.req.urgent) = true := mt List.any_eq_true.1 hu
  have hall : (l.filter fun e => !e.req.urgent) = l := by
    rw [List.filter_eq_self]
    exact fun e he => Bool.not_eq_true' _ ▸ Bool.eq_false_iff.2 fun hurgent => hu ⟨e, he, hurgent⟩
  rw [State.chooseFrom, find?_none_of h]
  exact (if_neg hany).trans (by rw [hall])

theorem State.chooseInGroup_isSome (h : l ≠ []) : (s.chooseInGroup l).isSome = true := by
  by_cases hh : ∃ e, e ∈ l ∧ s.rowHit e = true
  · rw [State.chooseInGroup_hit hh, List.find?_isSome]
    exact hh
  · rw [State.chooseInGroup_first hh, List.isSome_head?]
    simpa using h

/-- Among some eligible records one is chosen. -/
theorem State.chooseFrom_isSome (h : l ≠ []) : (s.chooseFrom l).isSome = true := by
  by_cases ho : ∃ e, e ∈ l ∧ decide (s.sched.ageLimit ≤ e.age) = true
  · rw [State.chooseFrom_old ho, List.find?_isSome]
    exact ho
  · by_cases hu : ∃ e, e ∈ l ∧ e.req.urgent = true
    · rw [State.chooseFrom_urgent ho hu]
      obtain ⟨e, he, hurgent⟩ := hu
      exact State.chooseInGroup_isSome (List.ne_nil_of_mem (List.mem_filter.2 ⟨he, hurgent⟩))
    · rw [State.chooseFrom_normal ho hu]
      exact State.chooseInGroup_isSome h

/-- The choice of R85 is the first record with a property, and that property is found by its three
steps. -/
theorem State.chooseFrom_steps :
    ((∃ e, e ∈ l ∧ decide (s.sched.ageLimit ≤ e.age) = true) →
      s.chooseFrom l = l.find? fun e => decide (s.sched.ageLimit ≤ e.age)) ∧
    ((¬ ∃ e, e ∈ l ∧ decide (s.sched.ageLimit ≤ e.age) = true) →
      (∃ e, e ∈ l ∧ e.req.urgent = true) →
      ((∃ e, e ∈ l ∧ (e.req.urgent && s.rowHit e) = true) →
        s.chooseFrom l = l.find? fun e => e.req.urgent && s.rowHit e) ∧
      ((¬ ∃ e, e ∈ l ∧ (e.req.urgent && s.rowHit e) = true) →
        s.chooseFrom l = l.find? fun e => e.req.urgent)) ∧
    ((¬ ∃ e, e ∈ l ∧ decide (s.sched.ageLimit ≤ e.age) = true) →
      (¬ ∃ e, e ∈ l ∧ e.req.urgent = true) →
      ((∃ e, e ∈ l ∧ s.rowHit e = true) → s.chooseFrom l = l.find? s.rowHit) ∧
      ((¬ ∃ e, e ∈ l ∧ s.rowHit e = true) → s.chooseFrom l = l.find? fun _ => true)) := by
  have hgroup : (∃ e, e ∈ l.filter (fun e => e.req.urgent) ∧ s.rowHit e = true) ↔
      ∃ e, e ∈ l ∧ (e.req.urgent && s.rowHit e) = true := by
    simp [and_assoc]
  refine ⟨State.chooseFrom_old, fun ho hu => ⟨fun hh => ?_, fun hh => ?_⟩,
    fun ho hu => ⟨fun hh => ?_, fun hh => ?_⟩⟩
  · rw [State.chooseFrom_urgent ho hu, State.chooseInGroup_hit (hgroup.2 hh), List.find?_filter]
    simp
  · rw [State.chooseFrom_urgent ho hu, State.chooseInGroup_first (mt hgroup.1 hh), List.head?_filter]
  · rw [State.chooseFrom_normal ho hu, State.chooseInGroup_hit hh]
  · rw [State.chooseFrom_normal ho hu, State.chooseInGroup_first hh]
    cases l <;> rfl

end

/-- The first record of a queue stands free. -/
theorem free_ne_nil {l : List Queued} (h : l ≠ []) : l.filter (standsFree l) ≠ [] := by
  cases l with
  | nil => exact absurd rfl h
  | cons q l =>
    have hfree : standsFree (q :: l) q = true := by simp [standsFree, blockedBy]
    exact List.ne_nil_of_mem (List.mem_filter.2 ⟨List.mem_cons_self, hfree⟩)

/-- The state after the selection of a record, before the read hold is looked at (R86, R88). -/
def State.selected (s : State) (q : Queued) : State :=
  { s with
    pool.queued := passOver q [] s.pool.queued
    pool.active := some q.activate
    sched.job := some .recordBurst }

theorem exec_selection {s : State} {q : Queued} (hlow : s.resetLow = false)
    (h : s.selectionGrant = true) (hq : s.chosen = some q) :
    exec .selection s = .next (s.selected q).endHeldBurst := by
  show s.take _ = _
  rw [State.take_high hlow, if_pos h, State.select, hq]
  rfl

/-- Only the job can be ended by the read hold (R89). -/
theorem State.endHeldBurst_job (s : State) :
    s.endHeldBurst = { s with sched.job := s.endHeldBurst.sched.job } := by
  rcases s.endHeldBurst_spec with e | ⟨-, -, e⟩ <;> rw [e]

/-- Settles O49: the chosen record, and what becomes of the rest of the queue. -/
theorem selectionChoosesByAgeUrgencyAndRowHit : Obligations.SelectionChoosesByAgeUrgencyAndRowHit := by
  intro s h ha hdr hd hs hact hne hnodup isWrite conflict eligible old urgent hit
  obtain ⟨hlow, ho, hu, hc⟩ := h.claims
  have hempty : s.pool.queued.isEmpty = false := by simpa using hne
  have hgrant : s.selectionGrant = true := by
    simp [State.selectionGrant, State.selectionClaim, ho, hu, hd, hact, hempty,
      State.hostWorkMayRun_of ha hdr, State.shutClaim_none hs]
  have hchosen : s.chosen = s.chooseFrom (s.pool.queued.filter (standsFree s.pool.queued)) := by
    rw [State.chosen, eligibleFrom_eq _ [] (by simpa using hnodup)]
    rfl
  obtain ⟨q, hq⟩ := Option.isSome_iff_exists.1
    (State.chooseFrom_isSome (s := s) (free_ne_nil hne))
  rw [← hchosen] at hq
  obtain ⟨before, after, hsplit⟩ := List.append_of_mem (State.chosen_mem hq)
  have hfree {e : Queued} (he : e ∈ s.pool.queued) :
      standsFree s.pool.queued e = true ↔ eligible e := by
    simp only [standsFree_iff hnodup he, Request.conflicts_iff]
    exact Iff.rfl
  have hmem {e : Queued} : e ∈ s.pool.queued.filter (standsFree s.pool.queued) ↔ eligible e := by
    rw [List.mem_filter]
    refine ⟨fun ⟨he, hf⟩ => (hfree he).1 hf, fun he => ?_⟩
    have hin : e ∈ s.pool.queued := by
      obtain ⟨first, rest, hl, -⟩ := he
      rw [hl]
      exact List.mem_append_right _ List.mem_cons_self
    exact ⟨hin, (hfree hin).2 he⟩
  have hbefore {e : Queued} (he : e ∈ before) : e ∈ s.pool.queued := by
    rw [hsplit]
    exact List.mem_append_left _ he
  have hrest : passOver q [] s.pool.queued = (before ++ after).map (aged s.pool.queued) := by
    rw [passOver_eq q _ [] (by simpa using hnodup), List.nil_append, hsplit,
      filter_ne_split (hsplit ▸ hnodup)]
  have hqfree : eligible q := hmem.1 (State.chooseFrom_mem (hchosen ▸ hq))
  have hin {e : Queued} (he : e ∈ before ++ after) : e ∈ s.pool.queued := by
    rw [hsplit]
    exact List.mem_append.2 ((List.mem_append.1 he).imp_right (List.mem_cons_of_mem _))
  have hexec := exec_selection hlow hgrant hq
  rw [State.endHeldBurst_job] at hexec
  refine ⟨before, q, after, _, hsplit, hqfree, hexec, rfl, rfl, rfl, rfl, fun hk => ?_, ?_, ?_,
    fun e he => ⟨fun hel => ?_, fun hel => ?_⟩⟩
  · refine congrArg (fun t : State => t.sched.job) (State.endHeldBurst_stays (s := s.selected q)
      (hk.imp State.holdInForce_of_none fun hk a ha => ?_))
    cases ha
    exact Kind.reads_eq_false hk
  · intro earliest some_
    have first {p : Queued → Bool} {P : Queued → Prop} (hp : ∀ e, p e = true ↔ P e)
        (hfind : s.chooseFrom (s.pool.queued.filter (standsFree s.pool.queued)) =
          (s.pool.queued.filter (standsFree s.pool.queued)).find? p) : earliest P := by
      rw [← hchosen, hq] at hfind
      obtain ⟨hpq, hfirst⟩ := find?_free_split hnodup hsplit hfind.symm
      exact ⟨(hp q).1 hpq, fun e he hel hpe => hfirst e he ((hfree (hbefore he)).2 hel) ((hp e).2 hpe)⟩
    have exists_ {p : Queued → Bool} {P : Queued → Prop} (hp : ∀ e, p e = true ↔ P e) :
        (∃ e, e ∈ s.pool.queued.filter (standsFree s.pool.queued) ∧ p e = true) ↔ some_ P :=
      exists_congr fun e => and_congr hmem (hp e)
    have hold (e : Queued) : decide (s.sched.ageLimit ≤ e.age) = true ↔ old e := decide_eq_true_iff
    have hurgent (e : Queued) : e.req.urgent = true ↔ urgent e := Iff.rfl
    have hhit (e : Queued) : s.rowHit e = true ↔ hit e := State.rowHit_iff
    have hboth (e : Queued) : (e.req.urgent && s.rowHit e) = true ↔ urgent e ∧ hit e := by
      rw [Bool.and_eq_true, hhit]
    obtain ⟨hsteps, husteps, hnsteps⟩ := State.chooseFrom_steps (s := s)
      (l := s.pool.queued.filter (standsFree s.pool.queued))
    rw [exists_ hold] at hsteps husteps hnsteps
    rw [exists_ hurgent, exists_ hboth] at husteps
    rw [exists_ hurgent, exists_ hhit] at hnsteps
    exact ⟨fun h => first hold (hsteps h),
      fun h h' => ⟨fun hh => first hboth ((husteps h h').1 hh),
        fun hh => first hurgent ((husteps h h').2 hh)⟩,
      fun h h' => ⟨fun hh => first hhit ((hnsteps h h').1 hh),
        fun hh => first (fun _ => iff_of_true rfl trivial) ((hnsteps h h').2 hh)⟩⟩
  · refine (passOver_map_req q s.pool.queued []).trans ?_
    rw [hsplit, filter_ne_split (hsplit ▸ hnodup)]
  · have haged : aged s.pool.queued e = { e with age := min 15 (e.age + 1) } :=
      if_pos ((hfree (hin he)).2 hel)
    rw [← haged]
    show _ ∈ passOver q [] s.pool.queued
    rw [hrest]
    exact List.mem_map_of_mem he
  · have haged : aged s.pool.queued e = e := if_neg (mt (hfree (hin he)).1 hel)
    show e ∈ passOver q [] s.pool.queued
    rw [hrest, ← haged]
    exact List.mem_map_of_mem he

end Sys2Proof.Machine

/-! What a read of each register shows (chapter 11). -/

namespace Sys2Proof.Machine

/-! ### The codes of the views are the places in their lists (R187, R189, R190) -/

theorem SubmitStatus.code_eq (x : SubmitStatus) : x.code =
    [SubmitStatus.none, .accepted, .poolFull, .notReady, .badKind, .tagBusy, .lengthFault, .alignFault,
      .rangeFault, .slotFault, .slotBusy].idxOf x := by
  cases x <;> rfl

theorem Kind.code_eq (x : Kind) : x.code = [Kind.read, .write, .fill, .compare].idxOf x := by
  cases x <;> rfl

theorem Result.code_eq (x : Result) :
    x.code = [Result.done, .mismatch, .aborted].idxOf x + 1 := by
  cases x <;> rfl

theorem CommandOutcome.code_eq (x : CommandOutcome) : x.code =
    [CommandOutcome.none, .accepted, .state, .modeFault, .ringFault].idxOf x := by
  cases x <;> rfl

theorem Indication.code_eq (x : Indication) : x.code =
    [Indication.none, .starting, .setting, .aligning, .retainPending].idxOf x := by
  cases x <;> rfl

theorem ArrayState.code_eq (x : ArrayState) : x.code =
    [ArrayState.cold, .starting, .ready, .setting, .aligning, .dozing, .retaining].idxOf x := by
  cases x <;> rfl

theorem FaultKind.code_eq (x : FaultKind) : x.code =
    [FaultKind.portFault, .emptyRelease, .consumerFault, .timingRange, .delayBusy,
      .commandFault].idxOf x + 1 := by
  cases x <;> rfl

theorem BankState.code_eq (x : BankState) : x.code =
    [BankState.closed, .opening, .opened, .shutting].idxOf x := by
  cases x <;> rfl

theorem Policy.code_eq (x : Policy) :
    x.code = [Policy.openPage, .closedPage, .adaptive].idxOf x := by
  cases x <;> rfl

theorem CaptureState.code_eq (x : CaptureState) :
    x.code = [CaptureState.idle, .running, .draining].idxOf x := by
  cases x <;> rfl

theorem LaneOutcome.code_eq (x : LaneOutcome) :
    x.code = [LaneOutcome.none, .locked, .failed].idxOf x := by
  cases x <;> rfl

/-! ### A read of a register -/

section
variable {s : State} {offset : BitVec 6}

/-- With RESET# high a register shows its value. -/
theorem shows_of {n : Nat} (hlow : s.resetLow = false)
    (h : s.registerValue offset = BitVec.ofNat 16 n) : Shows s offset n := by
  rw [Shows, State.readRegister, hlow, h]
  rfl

theorem showsBits_of {bit : Nat → Bool} (hlow : s.resetLow = false)
    (h : s.registerValue offset = pack ((List.range 16).map fun i => (bitOf (bit i), i))) :
    ShowsBits s offset bit := by
  refine ⟨_, ?_, pack_bits bit⟩
  rw [State.readRegister, hlow, h]
  rfl

/-- A narrower register shows its number. -/
theorem setWidth_eq_ofNat {n : Nat} (v : BitVec n) : v.setWidth 16 = BitVec.ofNat 16 v.toNat :=
  (BitVec.ofNat_toNat ..).symm

theorem word_eq_ofNat (v : Word) : v = BitVec.ofNat 16 v.toNat := by
  rw [BitVec.ofNat_toNat, BitVec.setWidth_eq]

theorem pack_two (a b j : Nat) :
    pack [(a, 0), (b, j)] = BitVec.ofNat 16 (a + b * 2 ^ j) := by
  simp [pack]

/-- The registers of the records (R35, R187, R189). -/
theorem recordViewsShow (hlow : s.resetLow = false) : RecordViewsShow s := by
  refine ⟨shows_of hlow (word_eq_ofNat _), shows_of hlow (setWidth_eq_ofNat _),
    shows_of hlow (setWidth_eq_ofNat _), shows_of hlow (setWidth_eq_ofNat _),
    shows_of hlow (setWidth_eq_ofNat _), shows_of hlow (word_eq_ofNat _),
    shows_of hlow ?_, shows_of hlow (pack_two _ _ 8), fun hd => ?_, fun d rest hd => ?_⟩
  · rw [← SubmitStatus.code_eq]
    rfl
  · have hmismatch : s.pool.headMismatch = (0, 0) := by rw [Pool.headMismatch, hd]; rfl
    refine ⟨shows_of hlow ?_, shows_of hlow ?_, shows_of hlow ?_, shows_of hlow ?_⟩
    · show s.pool.headInfo = _
      rw [Pool.headInfo, hd]
      rfl
    · show BitVec.ofNat 16 ((s.pool.done.head?.map fun c : Completion => c.wordsDone).getD 0) = _
      rw [hd]
      rfl
    · show BitVec.ofNat 16 s.pool.headMismatch.1 = _
      rw [hmismatch]
    · show BitVec.ofNat 16 s.pool.headMismatch.2 = _
      rw [hmismatch]
  · have hmismatch : s.pool.headMismatch = d.mismatch.getD (0, 0) := by
      rw [Pool.headMismatch, hd]
      rfl
    refine ⟨shows_of hlow ?_, shows_of hlow ?_, fun hm => ⟨shows_of hlow ?_, shows_of hlow ?_⟩,
      fun o c hm => ⟨shows_of hlow ?_, shows_of hlow ?_⟩⟩
    · rw [← Kind.code_eq, ← Result.code_eq]
      show s.pool.headInfo = _
      rw [Pool.headInfo, hd]
      rcases hs : d.suspect with _ | _ | _ <;> simp [pack, bitOf, hs]
    · show BitVec.ofNat 16 ((s.pool.done.head?.map fun c : Completion => c.wordsDone).getD 0) = _
      rw [hd]
      rfl
    · show BitVec.ofNat 16 s.pool.headMismatch.1 = _
      rw [hmismatch, hm]
      rfl
    · show BitVec.ofNat 16 s.pool.headMismatch.2 = _
      rw [hmismatch, hm]
      rfl
    · show BitVec.ofNat 16 s.pool.headMismatch.1 = _
      rw [hmismatch, hm]
      rfl
    · show BitVec.ofNat 16 s.pool.headMismatch.2 = _
      rw [hmismatch, hm]
      rfl

/-- Each bank's state in its two bits of the bank view (R57, R187). -/
theorem Table.view_field (u : Table) (b : Fin 8) :
    u.view.toNat / 4 ^ b.val % 4 = (u.banks.get b).state.code := by
  have hcode (x : BankState) : x.code < 4 := by cases x <;> decide
  have h0 := hcode (u.banks.get 0).state
  have h1 := hcode (u.banks.get 1).state
  have h2 := hcode (u.banks.get 2).state
  have h3 := hcode (u.banks.get 3).state
  have h4 := hcode (u.banks.get 4).state
  have h5 := hcode (u.banks.get 5).state
  have h6 := hcode (u.banks.get 6).state
  have h7 := hcode (u.banks.get 7).state
  have hview : u.view.toNat = (u.banks.get 0).state.code + (u.banks.get 1).state.code * 4 +
      (u.banks.get 2).state.code * 16 + (u.banks.get 3).state.code * 64 +
      (u.banks.get 4).state.code * 256 + (u.banks.get 5).state.code * 1024 +
      (u.banks.get 6).state.code * 4096 + (u.banks.get 7).state.code * 16384 := by
    simp only [Table.view, pack, bankNumbers, List.map_cons, List.map_nil, List.foldl_cons,
      List.foldl_nil, BitVec.toNat_ofNat]
    simp
    omega
  rw [hview]
  obtain ⟨b, hb⟩ := b
  interval_cases b <;> simp <;> omega

/-- The fault record's registers (R181, R187). -/
theorem State.registerValue_fault (s : State) : s.registerValue 0x14 =
    (s.events.record.map fun r => pack [(r.kind.code, 0), (r.further, 8)]).getD 0 := by
  cases h : s.events.record <;> simp [State.registerValue, h]

theorem bitOf_isNone (x : Option Word) : bitOf x.isNone = if x = none then 1 else 0 := by
  cases x <;> rfl

/-- The status views (R187, R190). -/
theorem statusViewsShow (hlow : s.resetLow = false) : StatusViewsShow s := by
  unfold StatusViewsShow
  intro bit state
  have hstate : state = s.ctrl.arrayState.code := (ArrayState.code_eq _).symm
  refine ⟨shows_of hlow (setWidth_eq_ofNat _), shows_of hlow ?_, shows_of hlow (setWidth_eq_ofNat _),
    shows_of hlow (setWidth_eq_ofNat _), shows_of hlow (setWidth_eq_ofNat _),
    shows_of hlow (setWidth_eq_ofNat _), fun hr => ?_, fun r hr => ?_, showsBits_of hlow ?_,
    showsBits_of hlow rfl, ⟨s.table.view, ?_, fun b => ?_⟩, fun ha => ?_, fun a ha => ?_,
    shows_of hlow ?_, shows_of hlow rfl, shows_of hlow ?_⟩
  · rw [hstate, ← CommandOutcome.code_eq, ← Indication.code_eq]
    show s.commandStatus = _
    simp [State.commandStatus, pack]
    rfl
  · refine ⟨shows_of hlow ?_, shows_of hlow ?_⟩
    · rw [State.registerValue_fault, hr]
      rfl
    · show (s.events.record.map fun r => r.detail).getD 0 = _
      rw [hr]
      rfl
  · refine ⟨shows_of hlow ?_, shows_of hlow ?_⟩
    · rw [State.registerValue_fault, hr, ← FaultKind.code_eq]
      exact pack_two _ _ 8
    · show (s.events.record.map fun r => r.detail).getD 0 = _
      rw [hr]
      exact word_eq_ofNat _
  · show pack _ = _
    simp
  · rw [State.readRegister, hlow]
    rfl
  · rw [← BankState.code_eq]
    exact s.table.view_field b
  · refine ⟨shows_of hlow ?_, shows_of hlow ?_⟩
    · show s.pool.schedView = _
      simp [Pool.schedView, ha, pack, bitOf]
    · show ((s.pool.active.map fun a : Active => a.req.tag).getD 0).setWidth 16 = _
      rw [ha]
      rfl
  · refine ⟨shows_of hlow ?_, shows_of hlow ?_⟩
    · show s.pool.schedView = _
      simp [Pool.schedView, ha, pack, bitOf, bit]
    · show ((s.pool.active.map fun a : Active => a.req.tag).getD 0).setWidth 16 = _
      rw [ha]
      exact setWidth_eq_ofNat _
  · show s.refresh.view = _
    simp [Refresh.view, pack, bitOf, bit, BitVec.toNat_ofInt]
  · have hhold : bitOf s.holdInForce = bit (∃ p, p ∈ s.ctrl.readHold.toList ∧ s.now < p) := by
      refine if_congr ?_ rfl rfl
      simp [State.holdInForce_iff]
    rw [hstate, ← hhold]
    show s.arrayView = _
    simp [State.arrayView, pack, bitOf_isNone, bit]

/-- The low half of a value wider than a register. -/
theorem setWidth_eq_lowHalf {n : Nat} (v : BitVec n) : v.setWidth 16 = lowHalf v.toNat := by
  apply BitVec.eq_of_toNat_eq
  simp [lowHalf]

/-- A signed number in two's complement. -/
theorem ofInt_eq_ofNat (x : Int) : BitVec.ofInt 16 x = BitVec.ofNat 16 (x % 65536).toNat := by
  apply BitVec.eq_of_toNat_eq
  rw [BitVec.toNat_ofInt, BitVec.toNat_ofNat]
  omega

/-- The settings (R188). -/
theorem settingsReadBack (hlow : s.resetLow = false) : SettingsReadBack s := by
  have value {k : BitVec 5} {n : Nat} (h : s.bus.paramSel = k)
      (hk : s.settingValue k = BitVec.ofNat 16 n) : Shows s 0x11 n :=
    shows_of hlow ((congrArg s.settingValue h).trans hk)
  refine ⟨fun n hn => ?_, fun h => value h rfl, fun h => value h rfl, fun h => value h rfl,
    fun h => value h ?_, fun h => value h rfl, fun h => value h rfl,
    fun h => value h (ofInt_eq_ofNat _), fun h => value h ?_,
    fun h => value h (word_eq_ofNat _), fun h => value h ?_,
    fun h => value h rfl, fun lane h => ?_⟩
  · refine value rfl ?_
    rw [State.settingValue, dif_pos (by omega)]
    simp [hn]
  · rw [← Policy.code_eq]
    rfl
  · exact setWidth_eq_lowHalf s.capture.base
  · exact setWidth_eq_lowHalf s.capture.mark
  · have hsel : s.bus.paramSel = BitVec.ofNat 5 (30 + lane.val) :=
      BitVec.eq_of_toNat_eq (by simp; omega)
    refine value hsel ?_
    match lane with
    | 0 => exact setWidth_eq_ofNat (s.ctrl.delays.get 0)
    | 1 => exact setWidth_eq_ofNat (s.ctrl.delays.get 1)

/-- The capture view, the mode view and the alignment view (R187). -/
theorem captureAndModeViewsShow (hlow : s.resetLow = false) : CaptureAndModeViewsShow s := by
  unfold CaptureAndModeViewsShow
  intro c halves outcome
  have halves_of {low high : BitVec 6} {n : Nat} (hl : s.registerValue low = lowHalf n)
      (hh : s.registerValue high = highHalf n) : halves low high n :=
    ⟨shows_of hlow hl, shows_of hlow hh⟩
  have copies (i : Fin 4) :
      s.registerValue (BitVec.ofNat 6 (0x30 + i.val)) = (s.ctrl.copies.get i).getD 0 := by
    match i with
    | 0 | 1 | 2 | 3 => rfl
  refine ⟨shows_of hlow ?_, halves_of rfl rfl, halves_of rfl rfl, halves_of rfl rfl,
    shows_of hlow rfl, shows_of hlow rfl, halves_of rfl rfl, shows_of hlow (word_eq_ofNat _),
    halves_of rfl rfl, fun i => ⟨shows_of hlow ?_, fun h => shows_of hlow ?_,
      fun v h => shows_of hlow ?_⟩,
    shows_of hlow ?_, shows_of hlow (pack_two _ _ 8), shows_of hlow (pack_two _ _ 8),
    fun lane k => showsBits_of hlow ?_⟩
  · rw [← CaptureState.code_eq]
    show pack [(c.state.code, 0), (bitOf c.assembler.isSome, 2), (c.fifo.length, 4)] = _
    cases hc : c.assembler <;> simp [pack, bitOf]
  · rw [← word_eq_ofNat]
    match i with
    | 0 | 1 | 2 | 3 => rfl
  · rw [copies i, h]
    rfl
  · rw [copies i, h]
    exact word_eq_ofNat v
  · simp only [outcome, ← LaneOutcome.code_eq]
    show pack _ = _
    simp [pack]
  · match lane, k with
    | 0, 0 | 0, 1 | 0, 2 | 0, 3 | 1, 0 | 1, 1 | 1, 2 | 1, 3 => rfl

end

/-! ### The reset values (R186, R187) -/

/-- The state in which RESET# falls: the reset state, with the unknown words drawn afresh. -/
def State.resetHeld (s : State) : State :=
  { State.reset with
    resetLow := true
    staging.epoch := s.staging.epoch + 1
    array.epoch := s.array.epoch + 1
    now := s.now
    draws := s.draws
    pending := s.pending }

theorem exec_hardwareReset (s : State) : exec .hardwareReset s = .next s.resetHeld := rfl

theorem exec_resetRelease (s : State) :
    exec .resetRelease s = .next { s with resetLow := false } := rfl

theorem readRegister_low {s : State} (h : s.resetLow = true) (offset : BitVec 6) :
    s.readRegister offset = none := by
  rw [State.readRegister, if_pos h]

/-- But for DP_DATA, the unknown words of a reset are not to be seen in the registers. -/
theorem registerValue_resetHeld (s : State) {offset : BitVec 6} (hdata : offset ≠ 0x0D) :
    ({ s.resetHeld with resetLow := false } : State).registerValue offset =
      State.reset.registerValue offset := by
  obtain ⟨⟨n, hn⟩⟩ := offset
  have hne : n ≠ 13 := by rintro rfl; exact hdata rfl
  rcases Nat.lt_or_gt_of_ne hne with hbelow | habove
  · interval_cases n <;> rfl
  · interval_cases n <;> rfl

/-- What each register but DP_DATA holds after a reset. -/
theorem registerValue_reset : ∀ offset : BitVec 6, offset ≠ 0x0D → State.reset.registerValue offset =
    if offset = 0x07 then 0x1000
    else if offset = 0x11 then 6
    else if offset = 0x1B then 0xE600
    else if offset = 0x1D then 0x0F00
    else if offset = 0x2C then 0x0006
    else if offset = 0x2E then 0x0005
    else if offset = 0x3F then 0x2416
    else 0 := by
  decide +kernel

/-- Settles O6: RESET# drives the part to constant register values, and every read shows its view. -/
theorem windowReadsTheResetValues : Obligations.WindowReadsTheResetValues := by
  refine ⟨fun s => ⟨_, _, exec_hardwareReset s, exec_resetRelease _, readRegister_low rfl, ?_⟩,
    fun s offset h => readRegister_low h offset, fun s h => ⟨recordViewsShow h, statusViewsShow h,
      settingsReadBack h, captureAndModeViewsShow h⟩⟩
  intro offset hdata
  exact congrArg some ((registerValue_resetHeld s hdata).trans (registerValue_reset offset hdata))

end Sys2Proof.Machine
